-- ==== Sys2Proof/Word.lean ====
section
/-! DEFINITION. The words of the machine: its bit-vector types and nothing else. -/

namespace Sys2Proof

/-- A byte of the DER buffer (10_state.md R36). -/
abbrev Byte := BitVec 8

/-- A 32-bit bus word, also a command word (20_memory.md R63, 30_encoding.md R90). -/
abbrev BusWord := BitVec 32

/-- The raw pattern an operand register holds (10_state.md R20). -/
abbrev RegWord := BitVec 256

/-- A byte address of the host window, bits 11:0 (20_memory.md R60). -/
abbrev Addr := BitVec 12

/-- A register field of a command word (30_encoding.md R93). -/
abbrev RegIdx := BitVec 4

/-- A byte offset into the DER buffer as DER_PTR, DER_END and the DER result registers hold it
(10_state.md R33, R35). -/
abbrev Offset := BitVec 12

end Sys2Proof
end

