-- ==== Sys2Proof/Syntax.lean ====
section
/-! DEFINITION. The commands of ECCLAB-CMD version 1: one constructor per row of the opcode table. -/

namespace Sys2Proof

/-- The modulus select M (30_encoding.md R90, 40_field.md R120): 0 selects p, 1 selects q. -/
inductive Modulus where
  | p
  | q
deriving DecidableEq, Repr

/-- A command (30_encoding.md R94). Operands stand in the order of R97's assembly syntax, after the
modulus select where the format has one. A pair field holds the pair's base register (R93). -/
inductive Instr where
  | fadd (m : Modulus) (rd ra rb : RegIdx)
  | fsub (m : Modulus) (rd ra rb : RegIdx)
  | fneg (m : Modulus) (rd ra : RegIdx)
  | fmul (m : Modulus) (rd ra rb : RegIdx)
  | mmul (m : Modulus) (rd ra rb : RegIdx)
  | finv (m : Modulus) (rd ra : RegIdx)
  | fsqrt (par : Bool) (rd ra : RegIdx)
  | fred (m : Modulus) (rd ra : RegIdx)
  | bred (m : Modulus) (rd ra rb : RegIdx)
  | ldc (rd k : RegIdx)
  | padd (rd ra rb : RegIdx)
  | pdbl (rd ra : RegIdx)
  | pmul (rd ra rb : RegIdx)
  | dtlv
  | dint (rd : RegIdx)
  | dseq
  | dbit
deriving DecidableEq, Repr

end Sys2Proof
end

