-- ==== Sys2Proof/WellFormed.lean ====
section
/-! DEFINITION. Which command terms a command word can stand for (30_encoding.md R95, conditions 6 and 7). -/

namespace Sys2Proof

/-- A pair field names the base register of an even-aligned pair (30_encoding.md R93). -/
def RegIdx.isEven (i : RegIdx) : Bool := !i.getLsbD 0

/-- The constant index of LDC selects a used slot, 0 to 6 (30_encoding.md R91). -/
def RegIdx.isSlot (k : RegIdx) : Bool := decide (k.toNat ≤ 6)

/-- The checks on a command term: even pair fields of PADD, PDBL and PMUL, and K ≤ 6 for LDC (30_encoding.md R91, R95).
Every other field may hold any value. -/
def Instr.wellFormed : Instr → Bool
  | .fadd _ _ _ _ => true
  | .fsub _ _ _ _ => true
  | .fneg _ _ _ => true
  | .fmul _ _ _ _ => true
  | .mmul _ _ _ _ => true
  | .finv _ _ _ => true
  | .fsqrt _ _ _ => true
  | .fred _ _ _ => true
  | .bred _ _ _ _ => true
  | .ldc _ k => RegIdx.isSlot k
  | .padd rd ra rb => RegIdx.isEven rd && RegIdx.isEven ra && RegIdx.isEven rb
  | .pdbl rd ra => RegIdx.isEven rd && RegIdx.isEven ra
  | .pmul rd ra _ => RegIdx.isEven rd && RegIdx.isEven ra
  | .dtlv => true
  | .dint _ => true
  | .dseq => true
  | .dbit => true

end Sys2Proof
end

