-- ==== Sys2Proof/Decode.lean ====
section
/-! DEFINITION. The decoder of command words, total and rejecting by name, and the encoder (30_encoding.md). -/

namespace Sys2Proof

/-- Why a word is illegal: the conditions of 30_encoding.md R95 that a decoder finds. All of them raise the one cause
ILLEGAL. -/
inductive Illegal where
  /-- OPC is not in the table of R94 (condition 1). -/
  | reservedOpcode
  /-- RSV ≠ 0 (condition 2). -/
  | reservedBits
  /-- RD, RA or RB is not 0 in a format that marks it 0 (condition 3). -/
  | unusedField
  /-- P = 1 in a command other than FSQRT (condition 4). -/
  | parityBit
  /-- M = 1 in a command without modulus select (condition 5). -/
  | modulusBit
  /-- A pair field is odd (condition 6). -/
  | oddPair
  /-- LDC with K ≥ 7 (condition 7). -/
  | constantIndex
deriving DecidableEq, Repr

/-! ### The fields of a command word (30_encoding.md R90) -/

def opcField (w : BusWord) : BitVec 8 := w.extractLsb' 24 8
def rdField (w : BusWord) : RegIdx := w.extractLsb' 20 4
def raField (w : BusWord) : RegIdx := w.extractLsb' 16 4
def rbField (w : BusWord) : RegIdx := w.extractLsb' 12 4
def rsvField (w : BusWord) : BitVec 10 := w.extractLsb' 2 10
def parityField (w : BusWord) : Bool := w.getLsbD 1
def modulusBit (w : BusWord) : Bool := w.getLsbD 0

/-- M = 0 selects p, M = 1 selects q (30_encoding.md R90). -/
def Modulus.ofBit (b : Bool) : Modulus := if b then .q else .p

/-- The modulus a word's M bit selects. -/
def modulusField (w : BusWord) : Modulus := Modulus.ofBit (modulusBit w)

/-! ### One checker per format (30_encoding.md R91): it answers the decoded command or the first condition broken -/

/-- FR3: P must be 0. -/
def decodeFR3 (mk : Modulus → RegIdx → RegIdx → RegIdx → Instr) (w : BusWord) : Except Illegal Instr :=
  if parityField w then .error .parityBit
  else .ok (mk (modulusField w) (rdField w) (raField w) (rbField w))

/-- FR2: RB and P must be 0. -/
def decodeFR2 (mk : Modulus → RegIdx → RegIdx → Instr) (w : BusWord) : Except Illegal Instr :=
  if rbField w ≠ 0 then .error .unusedField
  else if parityField w then .error .parityBit
  else .ok (mk (modulusField w) (rdField w) (raField w))

/-- FSQ: RB and M must be 0; P is the wanted parity. -/
def decodeFSQ (mk : Bool → RegIdx → RegIdx → Instr) (w : BusWord) : Except Illegal Instr :=
  if rbField w ≠ 0 then .error .unusedField
  else if modulusBit w then .error .modulusBit
  else .ok (mk (parityField w) (rdField w) (raField w))

/-- FK: RB, P and M must be 0, and K, in the RA field, at most 6. -/
def decodeFK (mk : RegIdx → RegIdx → Instr) (w : BusWord) : Except Illegal Instr :=
  if rbField w ≠ 0 then .error .unusedField
  else if parityField w then .error .parityBit
  else if modulusBit w then .error .modulusBit
  else if RegIdx.isSlot (raField w) then .ok (mk (rdField w) (raField w))
  else .error .constantIndex

/-- PR3: P and M must be 0, and RD, RA, RB even. -/
def decodePR3 (mk : RegIdx → RegIdx → RegIdx → Instr) (w : BusWord) : Except Illegal Instr :=
  if parityField w then .error .parityBit
  else if modulusBit w then .error .modulusBit
  else if RegIdx.isEven (rdField w) && RegIdx.isEven (raField w) && RegIdx.isEven (rbField w) then
    .ok (mk (rdField w) (raField w) (rbField w))
  else .error .oddPair

/-- PR2: RB, P and M must be 0, and RD, RA even. -/
def decodePR2 (mk : RegIdx → RegIdx → Instr) (w : BusWord) : Except Illegal Instr :=
  if rbField w ≠ 0 then .error .unusedField
  else if parityField w then .error .parityBit
  else if modulusBit w then .error .modulusBit
  else if RegIdx.isEven (rdField w) && RegIdx.isEven (raField w) then .ok (mk (rdField w) (raField w))
  else .error .oddPair

/-- PRS: P and M must be 0, and RD, RA even; RB is any register. -/
def decodePRS (mk : RegIdx → RegIdx → RegIdx → Instr) (w : BusWord) : Except Illegal Instr :=
  if parityField w then .error .parityBit
  else if modulusBit w then .error .modulusBit
  else if RegIdx.isEven (rdField w) && RegIdx.isEven (raField w) then
    .ok (mk (rdField w) (raField w) (rbField w))
  else .error .oddPair

/-- D1: RA, RB, P and M must be 0. -/
def decodeD1 (mk : RegIdx → Instr) (w : BusWord) : Except Illegal Instr :=
  if raField w ≠ 0 ∨ rbField w ≠ 0 then .error .unusedField
  else if parityField w then .error .parityBit
  else if modulusBit w then .error .modulusBit
  else .ok (mk (rdField w))

/-- D0: RD, RA, RB, P and M must be 0. -/
def decodeD0 (i : Instr) (w : BusWord) : Except Illegal Instr :=
  if rdField w ≠ 0 then .error .unusedField
  else decodeD1 (fun _ => i) w

/-- The operation codes of 30_encoding.md R94; every other value is reserved (R96). -/
def decodeOpcode (w : BusWord) : Except Illegal Instr :=
  match (opcField w).toNat with
  | 0x01 => decodeFR3 .fadd w
  | 0x02 => decodeFR3 .fsub w
  | 0x03 => decodeFR2 .fneg w
  | 0x04 => decodeFR3 .fmul w
  | 0x05 => decodeFR3 .mmul w
  | 0x06 => decodeFR2 .finv w
  | 0x07 => decodeFSQ .fsqrt w
  | 0x08 => decodeFR2 .fred w
  | 0x09 => decodeFR3 .bred w
  | 0x0A => decodeFK .ldc w
  | 0x10 => decodePR3 .padd w
  | 0x11 => decodePR2 .pdbl w
  | 0x12 => decodePRS .pmul w
  | 0x20 => decodeD0 .dtlv w
  | 0x21 => decodeD1 .dint w
  | 0x22 => decodeD0 .dseq w
  | 0x23 => decodeD0 .dbit w
  | _ => .error .reservedOpcode

/-- The legality check and decoding of a command word (30_encoding.md R95): RSV must be 0 in every format (R91). -/
def decode (w : BusWord) : Except Illegal Instr :=
  if rsvField w ≠ 0 then .error .reservedBits else decodeOpcode w

/-- The instruction the decoder reads from a table word. A command is one 32-bit word (30_encoding.md R90), and the bus
carries it whole (20_memory.md R61), so no byte layout stands between the number and the word. -/
def decodeTableWord (nbits w : Nat) : Option Instr :=
  match decode (BitVec.ofNat 32 (w % 2 ^ nbits)) with
  | .ok i => some i
  | .error _ => none

/-! ### The match and mask table (30_encoding.md R94) -/

/-- One row of the match and mask table: a word `w` selects the row's command when `w & mask = match` and the row's extra
condition, if it has one, holds: `maxK` bounds w[19:16]. -/
structure OpcodeRow where
  mnemonic : String
  pattern : BusWord
  mask : BusWord
  maxK : Option Nat
deriving DecidableEq, Repr

/-- A word selects a row (30_encoding.md R94). -/
def OpcodeRow.selects (r : OpcodeRow) (w : BusWord) : Bool :=
  decide (w &&& r.mask = r.pattern) &&
    match r.maxK with
    | none => true
    | some k => decide ((raField w).toNat ≤ k)

/-- The 17 rows of 30_encoding.md R94, in its order. -/
def opcodeRows : List OpcodeRow :=
  [⟨"FADD", 0x01000000#32, 0xFF000FFE#32, none⟩,
   ⟨"FSUB", 0x02000000#32, 0xFF000FFE#32, none⟩,
   ⟨"FNEG", 0x03000000#32, 0xFF00FFFE#32, none⟩,
   ⟨"FMUL", 0x04000000#32, 0xFF000FFE#32, none⟩,
   ⟨"MMUL", 0x05000000#32, 0xFF000FFE#32, none⟩,
   ⟨"FINV", 0x06000000#32, 0xFF00FFFE#32, none⟩,
   ⟨"FSQRT", 0x07000000#32, 0xFF00FFFD#32, none⟩,
   ⟨"FRED", 0x08000000#32, 0xFF00FFFE#32, none⟩,
   ⟨"BRED", 0x09000000#32, 0xFF000FFE#32, none⟩,
   ⟨"LDC", 0x0A000000#32, 0xFF00FFFF#32, some 6⟩,
   ⟨"PADD", 0x10000000#32, 0xFF111FFF#32, none⟩,
   ⟨"PDBL", 0x11000000#32, 0xFF11FFFF#32, none⟩,
   ⟨"PMUL", 0x12000000#32, 0xFF110FFF#32, none⟩,
   ⟨"DTLV", 0x20000000#32, 0xFFFFFFFF#32, none⟩,
   ⟨"DINT", 0x21000000#32, 0xFF0FFFFF#32, none⟩,
   ⟨"DSEQ", 0x22000000#32, 0xFFFFFFFF#32, none⟩,
   ⟨"DBIT", 0x23000000#32, 0xFFFFFFFF#32, none⟩]

/-! ### The encoder -/

/-- A command word from its fields, RSV 0 (30_encoding.md R90). -/
def wordOf (opc : BitVec 8) (rd ra rb : RegIdx) (p m : Bool) : BusWord :=
  (opc.setWidth 32 <<< 24) ||| (rd.setWidth 32 <<< 20) ||| (ra.setWidth 32 <<< 16) ||| (rb.setWidth 32 <<< 12) |||
    ((BitVec.ofBool p).setWidth 32 <<< 1) ||| (BitVec.ofBool m).setWidth 32

/-- The M bit of a modulus (30_encoding.md R90). -/
def Modulus.bit : Modulus → Bool
  | .p => false
  | .q => true

/-- The word of a command (30_encoding.md R90, R91, R94): the assembler writes unused fields, RSV and (outside FSQRT) P
as 0 (R97). -/
def encode : Instr → BusWord
  | .fadd m rd ra rb => wordOf 0x01 rd ra rb false m.bit
  | .fsub m rd ra rb => wordOf 0x02 rd ra rb false m.bit
  | .fneg m rd ra => wordOf 0x03 rd ra 0 false m.bit
  | .fmul m rd ra rb => wordOf 0x04 rd ra rb false m.bit
  | .mmul m rd ra rb => wordOf 0x05 rd ra rb false m.bit
  | .finv m rd ra => wordOf 0x06 rd ra 0 false m.bit
  | .fsqrt par rd ra => wordOf 0x07 rd ra 0 par false
  | .fred m rd ra => wordOf 0x08 rd ra 0 false m.bit
  | .bred m rd ra rb => wordOf 0x09 rd ra rb false m.bit
  | .ldc rd k => wordOf 0x0A rd k 0 false false
  | .padd rd ra rb => wordOf 0x10 rd ra rb false false
  | .pdbl rd ra => wordOf 0x11 rd ra 0 false false
  | .pmul rd ra rb => wordOf 0x12 rd ra rb false false
  | .dtlv => wordOf 0x20 0 0 0 false false
  | .dint rd => wordOf 0x21 rd 0 0 false false
  | .dseq => wordOf 0x22 0 0 0 false false
  | .dbit => wordOf 0x23 0 0 0 false false

end Sys2Proof
end

