-- ==== Sys2Proof/Config.lean ====
section
/-! DEFINITION. What an implementation fixes, and the one free value the spec leaves open. -/

namespace Sys2Proof.Config

/-- FREE VALUE (10_state.md R39, 70_reset_and_hazards.md R273, 93_implementation_defined.md U1): what byte `i` of the
DER buffer holds after the `epoch`-th hard reset, until the host writes it. It has no body, so nothing can be proved
of it. Log entry 5. Safe. -/
opaque derDraw : (epoch : Nat) → (i : Nat) → Byte

/-- The default of the OPEN parameter ID_VALUE (00_scope.md R7, 10_state.md R31). DESIGN CHOICE: State.reset takes the
default, and no statement rests on it. Log entry 6. -/
def idDefault : BusWord := 0xEC256001#32

/-- DERN, the size of the DER buffer in bytes (00_scope.md R7). -/
def derSize : Nat := 2048

/-- DER_BASE, the window address of DER buffer byte 0 (00_scope.md R11). -/
def derBase : Nat := 0x800

end Sys2Proof.Config
end

