-- ==== Sys2Proof/Machine/Memory.lean ====
section
/-! DEFINITION. The DER buffer as a sparse list of written bytes in one canonical form. -/

namespace Sys2Proof.Machine

/-- The bytes written since the last hard reset, by window address, addresses strictly rising. An unlisted byte of the
buffer is one nothing has written, whose content is unspecified (10_state.md R39); no listed byte is that, so the list
is the only one with its contents. Log entry 5. -/
abbrev Memory := List Host.Cell

/-- The listed byte at an address, or `none` where nothing has written. -/
def Memory.lookup : Memory → Nat → Option Byte
  | [], _ => none
  | (k, b) :: rest, a => if k = a then some b else Memory.lookup rest a

/-- The memory with one byte written, in canonical form. -/
def Memory.write : Memory → Nat → Byte → Memory
  | [], a, b => [(a, b)]
  | (k, c) :: rest, a, b =>
    if a < k then (a, b) :: (k, c) :: rest
    else if a = k then (a, b) :: rest
    else (k, c) :: Memory.write rest a b

/-- Addresses strictly rising from a lower bound and all inside the DER window 0x800 to 0xFFF (20_memory.md R64). -/
def Memory.risingFrom : Nat → Memory → Bool
  | _, [] => true
  | lo, (k, _) :: rest =>
    decide (lo ≤ k) && decide (k < Config.derBase + Config.derSize) && Memory.risingFrom (k + 1) rest

/-- The canonical form: addresses strictly rising, each inside the DER window. -/
def Memory.wf (m : Memory) : Bool := Memory.risingFrom Config.derBase m

/-- Four bytes written at consecutive addresses, the most significant first (20_memory.md R62). -/
def Memory.writeWord (m : Memory) (a : Nat) (d : BusWord) : Memory :=
  (((m.write a (d.extractLsb' 24 8)).write (a + 1) (d.extractLsb' 16 8)).write (a + 2)
    (d.extractLsb' 8 8)).write (a + 3) (d.extractLsb' 0 8)

end Sys2Proof.Machine
end

