-- ==== Sys2Proof/Machine/State.lean ====
section
/-! DEFINITION. The state of the core as plain data, its reset value, and why a step can stop. -/

namespace Sys2Proof.Machine

/-- `Fault` has no constructor: the core has no traps (60_exceptions.md R230), every command completes (R236), and a
misaligned access is answered by a bus error response and changes no state (20_memory.md R63, log entry 3). Nobody
raises one. Safe. -/
inductive Fault where
deriving DecidableEq, Repr

/-- Why a step has no meaning. -/
inductive Refusal where
  /-- Raised by `exec`'s arm of an instruction that has no meaning yet, and by nothing else. Every instruction has its
  meaning, so no step raises it. Safe. -/
  | notModelled (mnemonic : String)
deriving DecidableEq, Repr

/-- ERRCODE.CAUSE (60_exceptions.md R231). -/
inductive Cause where
  | none
  | illegal
  | encoding
  | domain
  | divZero
  | noSqrt
  | format
deriving DecidableEq, Repr

/-- ERRCODE.DETAIL (42_der.md R191); `none` is the 0 of every error that is not FORMAT (10_state.md R30). -/
inductive Detail where
  | none
  | badSlice
  | truncHdr
  | indefLen
  | truncLen
  | nonminLen
  | shortValue
  | wrongTag
  | nonminInt
  | emptyInt
  | badUnused
deriving DecidableEq, Repr

/-- A host access: one 32-bit read or write on the window (20_memory.md R61). The address may be misaligned (R63). -/
inductive BusAccess where
  | read (addr : Addr)
  | write (addr : Addr) (data : BusWord)
deriving DecidableEq, Repr

/-- What the block answers to a host access (20_memory.md R63): the word read, the write taken, or the bus error response,
which carries data 0 for a read. -/
inductive BusResponse where
  | readData (data : BusWord)
  | writeDone
  | readError (data : BusWord)
  | writeError
deriving DecidableEq, Repr

/-- What can happen next (00_scope.md R16): a host access, the engine's turn, or a hard reset. Log entry 1. -/
inductive Event where
  | bus (a : BusAccess)
  | engine
  | hardReset
deriving DecidableEq, Repr

/-- Every piece of state 10_state.md gives the core (R20 to R37), and three fields of the model's own (`epoch`, `events`
and `resp`). -/
structure State where
  /-- R0 to R15 (10_state.md R20). -/
  regs : Vector RegWord 16
  /-- ID, which nothing writes (10_state.md R31). -/
  id : BusWord
  /-- CTRL.IE (10_state.md R27). -/
  ie : Bool
  /-- STATUS.BUSY (10_state.md R28). -/
  busy : Bool
  /-- STATUS.DONE (10_state.md R28). -/
  done : Bool
  /-- STATUS.ERR (10_state.md R28). -/
  err : Bool
  /-- STATUS.Z (10_state.md R28). -/
  z : Bool
  /-- STATUS.RG (10_state.md R28). -/
  rg : Bool
  /-- STATUS.OVR (10_state.md R28). -/
  ovr : Bool
  /-- CMD, the last accepted command word (10_state.md R29, R37). -/
  cmd : BusWord
  /-- ERRCODE.CAUSE (10_state.md R30). -/
  cause : Cause
  /-- ERRCODE.DETAIL (10_state.md R30). -/
  detail : Detail
  /-- ERRPOS.POS (10_state.md R32). -/
  errpos : Offset
  /-- DER_PTR (10_state.md R33). -/
  derPtr : Offset
  /-- DER_END (10_state.md R33). -/
  derEnd : Offset
  /-- DER_TAG (10_state.md R35). -/
  derTag : Byte
  /-- DER_LEN (10_state.md R35). -/
  derLen : Offset
  /-- DER_VOFF (10_state.md R35). -/
  derVoff : Offset
  /-- DER_NEXT (10_state.md R35). -/
  derNext : Offset
  /-- DER_CNT (10_state.md R35). -/
  derCnt : Offset
  /-- The DER buffer bytes written since the last hard reset, by window address (10_state.md R36). -/
  mem : Memory
  /-- The model's own: how many hard resets were delivered (log entry 5). -/
  epoch : Nat
  /-- The model's own: the inputs and engine turns still to come (log entry 1). -/
  events : List Event
  /-- The model's own: the answer to the latest host access (log entry 4). -/
  resp : Option BusResponse
deriving DecidableEq, Repr

/-- The core right after a hard reset (10_state.md R39), with no input scheduled. -/
def State.reset : State where
  regs := Vector.replicate 16 0
  id := Config.idDefault
  ie := false
  busy := false
  done := false
  err := false
  z := false
  rg := false
  ovr := false
  cmd := 0
  cause := .none
  detail := .none
  errpos := 0
  derPtr := 0
  derEnd := 0
  derTag := 0
  derLen := 0
  derVoff := 0
  derNext := 0
  derCnt := 0
  mem := []
  epoch := 0
  events := []
  resp := none

end Sys2Proof.Machine
end

