-- ==== Sys2Proof/Machine/Ops.lean ====
section
/-! DEFINITION. The named operations over registers and memory, ending a command with or without an error, accepting a
command, and the two resets. -/

namespace Sys2Proof.Machine

/-- What a command or a step answers. -/
abbrev Result := Host.Outcome State Fault Refusal

/-! ### Operand registers (10_state.md R20) -/

/-- x[i], the raw pattern in Ri (00_scope.md R10). -/
def State.reg (s : State) (i : RegIdx) : RegWord := s.regs[i.toNat]'i.isLt

/-- x[i] as an unsigned integer (10_state.md R20). -/
def State.regNat (s : State) (i : RegIdx) : Nat := (s.reg i).toNat

/-- x[i] <- v (00_scope.md R10). -/
def State.setReg (s : State) (i : RegIdx) (v : RegWord) : State :=
  { s with regs := s.regs.set i.toNat v i.isLt }

/-- The second register of the pair with base register i (10_state.md R24). -/
def pairSnd (i : RegIdx) : RegIdx := i + 1

/-- P(i) <- (X, Y): x[i] <- X and x[i+1] <- Y (00_scope.md R10). -/
def State.setPair (s : State) (i : RegIdx) (x y : RegWord) : State :=
  (s.setReg i x).setReg (pairSnd i) y

/-! ### The DER buffer (10_state.md R36) -/

/-- byte(i), byte i of the DER buffer (00_scope.md R11). A byte that nothing has written since the last hard reset reads
as its draw (70_reset_and_hazards.md R273). -/
def State.derByte (s : State) (i : Nat) : Byte :=
  (s.mem.lookup (Config.derBase + i)).getD (Config.derDraw s.epoch i)

/-! ### Ending a command (60_exceptions.md R236) -/

/-- raise CAUSE(pos) with a detail: the error completion (00_scope.md R12, 60_exceptions.md R236). It writes no operand
register and no DER register. -/
def State.raise (s : State) (c : Cause) (d : Detail) (pos : Offset) : State :=
  { s with
    busy := false, done := true, err := true, z := false, rg := false, cause := c, detail := d, errpos := pos }

/-- complete(Z, RG): the successful completion, after the rule's register writes (00_scope.md R13, 60_exceptions.md R236).
ERRCODE and ERRPOS keep the 0 that acceptance gave them (log entry 12). -/
def State.complete (s : State) (z rg : Bool) : State :=
  { s with busy := false, done := true, err := false, z := z, rg := rg }

/-- The answer of a command that raised an error. -/
def raised (s : State) (c : Cause) (d : Detail) (pos : Offset) : Result := .next (s.raise c d pos)

/-- The answer of a command that completed. -/
def completed (s : State) (z rg : Bool) : Result := .next (s.complete z rg)

/-! ### Starting a command (60_exceptions.md R235) -/

/-- Acceptance of the word w as a command. OVR, CTRL, the operand registers and the DER registers are unchanged. -/
def State.accept (s : State) (w : BusWord) : State :=
  { s with
    cmd := w, busy := true, done := false, err := false, z := false, rg := false, cause := .none, detail := .none,
    errpos := 0 }

/-- A host write dropped because BUSY = 1 (20_memory.md R68). -/
def State.dropWrite (s : State) : State := { s with ovr := true }

/-! ### Resets (10_state.md R39) -/

/-- The soft reset (70_reset_and_hazards.md R272): everything but the DER buffer takes its reset value, and a command in
flight is aborted. What the host has scheduled and the last bus response are not the block's to reset. -/
def State.softReset (s : State) : State :=
  { State.reset with id := s.id, mem := s.mem, epoch := s.epoch, events := s.events, resp := s.resp }

/-- The hard reset (70_reset_and_hazards.md R270): everything takes its reset value, and the DER buffer is unspecified
anew, so its bytes are fresh draws (R273). ID_VALUE is the implementation's and stays. -/
def State.hardReset (s : State) : State :=
  { State.reset with id := s.id, epoch := s.epoch + 1, events := s.events }

end Sys2Proof.Machine
end

