-- ==== Sys2Proof/Machine/Flags.lean ====
section
/-! DEFINITION. The flag computations, and the status and control registers as the words the host reads and writes. -/

namespace Sys2Proof.Machine

/-- ERRCODE.CAUSE's code (60_exceptions.md R231). -/
def Cause.code : Cause → BitVec 8
  | .none => 0
  | .illegal => 1
  | .encoding => 2
  | .domain => 3
  | .divZero => 4
  | .noSqrt => 5
  | .format => 6

/-- ERRCODE.DETAIL's code (42_der.md R191). -/
def Detail.code : Detail → BitVec 8
  | .none => 0
  | .badSlice => 1
  | .truncHdr => 2
  | .indefLen => 3
  | .truncLen => 4
  | .nonminLen => 5
  | .shortValue => 6
  | .wrongTag => 7
  | .nonminInt => 8
  | .emptyInt => 9
  | .badUnused => 10

/-- A flag at a bit of a register word; every bit not listed reads 0 (10_state.md R26). -/
def flagAt (b : Bool) (i : Nat) : BusWord := (BitVec.ofBool b).setWidth 32 <<< i

/-- STATUS as the host reads it (10_state.md R28). -/
def State.statusWord (s : State) : BusWord :=
  flagAt s.busy 0 ||| flagAt s.done 1 ||| flagAt s.err 2 ||| flagAt s.z 3 ||| flagAt s.rg 4 ||| flagAt s.ovr 5

/-- CTRL as the host reads it: IE in bit 0, SRST reads 0 (10_state.md R27). -/
def State.ctrlWord (s : State) : BusWord := flagAt s.ie 0

/-- ERRCODE as the host reads it: DETAIL in bits 15:8, CAUSE in bits 7:0 (10_state.md R30). -/
def State.errcodeWord (s : State) : BusWord := (s.detail.code.setWidth 32 <<< 8) ||| s.cause.code.setWidth 32

/-- The interrupt output irq = CTRL.IE & STATUS.DONE (60_exceptions.md R240). -/
def State.irq (s : State) : Bool := s.ie && s.done

/-- A write of d to STATUS: a 1 in bit 1 clears DONE, a 1 in bit 5 clears OVR, and nothing else changes
(10_state.md R28). -/
def State.writeStatus (s : State) (d : BusWord) : State :=
  { s with done := s.done && !d.getLsbD 1, ovr := s.ovr && !d.getLsbD 5 }

/-- A write of d to CTRL: with bit 1 set it is the soft reset and bit 0 is ignored, otherwise IE takes bit 0
(10_state.md R27). -/
def State.writeCtrl (s : State) (d : BusWord) : State :=
  if d.getLsbD 1 then s.softReset else { s with ie := d.getLsbD 0 }

/-- Z of a command that writes the value r: r = 0 (40_field.md R124). -/
def zeroFlag (r : Nat) : Bool := decide (r = 0)

end Sys2Proof.Machine
end

