-- ==== Sys2Proof/Machine/Rom.lean ====
section
/-! DEFINITION. The domain parameters of P-256 and the constant ROM (10_state.md R34). -/

namespace Sys2Proof.Machine

/-- The curve prime (10_state.md R34, slot 0). -/
def curveP : Nat := 0xFFFFFFFF00000001000000000000000000000000FFFFFFFFFFFFFFFFFFFFFFFF

/-- The curve coefficient a = −3 as a reduced field element, p − 3 (10_state.md R34, slot 1). -/
def curveA : Nat := 0xFFFFFFFF00000001000000000000000000000000FFFFFFFFFFFFFFFFFFFFFFFC

/-- The curve coefficient b (10_state.md R34, slot 2). -/
def curveB : Nat := 0x5AC635D8AA3A93E7B3EBBD55769886BC651D06B0CC53B0F63BCE3C3E27D2604B

/-- The x-coordinate of the base point (10_state.md R34, slot 3). -/
def baseX : Nat := 0x6B17D1F2E12C4247F8BCE6E563A440F277037D812DEB33A0F4A13945D898C296

/-- The y-coordinate of the base point (10_state.md R34, slot 4). -/
def baseY : Nat := 0x4FE342E2FE1A7F9B8EE7EB4A7C0F9E162BCE33576B315ECECBB6406837BF51F5

/-- The group order (10_state.md R34, slot 5). -/
def curveQ : Nat := 0xFFFFFFFF00000000FFFFFFFFFFFFFFFFBCE6FAADA7179E84F3B9CAC2FC632551

/-- The cofactor h = 1 (10_state.md R34, slot 6). -/
def cofactor : Nat := 1

/-- The content of constant slot k (10_state.md R34). Slot 7 is reserved and reads 0; there is no slot above it. -/
def romSlot : Nat → RegWord
  | 0 => BitVec.ofNat 256 curveP
  | 1 => BitVec.ofNat 256 curveA
  | 2 => BitVec.ofNat 256 curveB
  | 3 => BitVec.ofNat 256 baseX
  | 4 => BitVec.ofNat 256 baseY
  | 5 => BitVec.ofNat 256 curveQ
  | 6 => BitVec.ofNat 256 cofactor
  | _ => 0

/-- The modulus m that the M bit selects (40_field.md R120). -/
def modulusValue : Modulus → Nat
  | .p => curveP
  | .q => curveQ

end Sys2Proof.Machine
end

