-- ==== Sys2Proof/Machine/Bus.lean ====
section
/-! DEFINITION. The host window: where an address lies, and what one host access does (20_memory.md). -/

namespace Sys2Proof.Machine

/-- The control and status registers (10_state.md R26). -/
inductive Csr where
  | id
  | ctrl
  | status
  | cmd
  | errcode
  | errpos
  | derPtr
  | derEnd
  | derTag
  | derLen
  | derVoff
  | derNext
  | derCnt
deriving DecidableEq, Repr

/-- What a word of the window is (20_memory.md R64): word 0 of a register or slot is its most significant (R62). -/
inductive Place where
  | csr (c : Csr)
  | rom (slot : Nat) (word : Nat)
  | reg (i : RegIdx) (word : Nat)
  | der (offset : Nat)
  | reserved
deriving DecidableEq, Repr

/-- The register at word n of the control and status block (10_state.md R26). -/
def csrPlace : Nat → Place
  | 0 => .csr .id
  | 1 => .csr .ctrl
  | 2 => .csr .status
  | 3 => .csr .cmd
  | 4 => .csr .errcode
  | 5 => .csr .errpos
  | 8 => .csr .derPtr
  | 9 => .csr .derEnd
  | 10 => .csr .derTag
  | 11 => .csr .derLen
  | 12 => .csr .derVoff
  | 13 => .csr .derNext
  | 14 => .csr .derCnt
  | _ => .reserved

/-- The window map (20_memory.md R64). -/
def placeOf (a : Addr) : Place :=
  let n := a.toNat
  if n < 0x040 then csrPlace (n / 4)
  else if n < 0x200 then .reserved
  else if n < 0x300 then .rom ((n - 0x200) / 32) (n % 32 / 4)
  else if n < 0x400 then .reserved
  else if n < 0x600 then .reg (BitVec.ofNat 4 ((n - 0x400) / 32)) (n % 32 / 4)
  else if n < 0x800 then .reserved
  else .der (n - 0x800)

/-- An address whose bits 1:0 are not 0 is misaligned (20_memory.md R63). -/
def misaligned (a : Addr) : Bool := decide (a.toNat % 4 ≠ 0)

/-- Word j of a 256-bit value: bits 255−32j : 224−32j (20_memory.md R62). -/
def wordOfReg (v : RegWord) (j : Nat) : BusWord := v.extractLsb' (224 - 32 * j) 32

/-- A 256-bit value with its word j replaced and the rest unchanged (20_memory.md R62, R65). -/
def setWordOfReg (v : RegWord) (j : Nat) (d : BusWord) : RegWord :=
  let sh := 224 - 32 * j
  (v &&& ~~~(((BitVec.allOnes 32).setWidth 256) <<< sh)) ||| (d.setWidth 256 <<< sh)

/-- The word of the DER buffer at offset i: byte i in bits 31:24 (20_memory.md R62). -/
def State.derWord (s : State) (i : Nat) : BusWord :=
  ((s.derByte i).setWidth 32 <<< 24) ||| ((s.derByte (i + 1)).setWidth 32 <<< 16) |||
    ((s.derByte (i + 2)).setWidth 32 <<< 8) ||| (s.derByte (i + 3)).setWidth 32

/-- What a control or status register reads as (10_state.md R26 to R35). -/
def State.readCsr (s : State) : Csr → BusWord
  | .id => s.id
  | .ctrl => s.ctrlWord
  | .status => s.statusWord
  | .cmd => s.cmd
  | .errcode => s.errcodeWord
  | .errpos => s.errpos.setWidth 32
  | .derPtr => s.derPtr.setWidth 32
  | .derEnd => s.derEnd.setWidth 32
  | .derTag => s.derTag.setWidth 32
  | .derLen => s.derLen.setWidth 32
  | .derVoff => s.derVoff.setWidth 32
  | .derNext => s.derNext.setWidth 32
  | .derCnt => s.derCnt.setWidth 32

/-- What an aligned read answers (20_memory.md R64, R67, R68). A read has no side effect (R66), so it is a function of the
state alone. -/
def State.readPlace (s : State) : Place → BusWord
  | .csr c => s.readCsr c
  | .rom slot j => wordOfReg (romSlot slot) j
  | .reg i j => if s.busy then 0 else wordOfReg (s.reg i) j
  | .der off => s.derWord off
  | .reserved => 0

/-- A write that BUSY gates: dropped with OVR set while BUSY = 1 (20_memory.md R68). -/
def State.gated (s : State) (t : State) : State := if s.busy then s.dropWrite else t

/-- A write to a control or status register: CTRL and STATUS are honoured always, CMD, DER_PTR and DER_END are gated by
BUSY, and the others are read-only (10_state.md R26 to R35, 20_memory.md R68). -/
def State.writeCsr (s : State) (d : BusWord) : Csr → State
  | .id => s
  | .ctrl => s.writeCtrl d
  | .status => s.writeStatus d
  | .cmd => s.gated (s.accept d)
  | .errcode => s
  | .errpos => s
  | .derPtr => s.gated { s with derPtr := d.setWidth 12 }
  | .derEnd => s.gated { s with derEnd := d.setWidth 12 }
  | .derTag => s
  | .derLen => s
  | .derVoff => s
  | .derNext => s
  | .derCnt => s

/-- What an aligned write does to the block (20_memory.md R64, R67, R68). -/
def State.writePlace (s : State) (d : BusWord) : Place → State
  | .csr c => s.writeCsr d c
  | .rom _ _ => s
  | .reg i j => s.gated (s.setReg i (setWordOfReg (s.reg i) j d))
  | .der off => s.gated { s with mem := s.mem.writeWord (Config.derBase + off) d }
  | .reserved => s

/-- The state with the block's answer to a host access. -/
def State.respond (s : State) (r : BusResponse) : State := { s with resp := some r }

/-- One host access: a misaligned one is answered by a bus error, a read with data 0, and changes no state
(20_memory.md R61, R63). -/
def State.busAccess (s : State) : BusAccess → State
  | .read a => if misaligned a then s.respond (.readError 0) else s.respond (.readData (s.readPlace (placeOf a)))
  | .write a d => if misaligned a then s.respond .writeError else (s.writePlace d (placeOf a)).respond .writeDone

end Sys2Proof.Machine
end

