-- ==== Sys2Proof/Machine/Arith.lean ====
section
/-! DEFINITION. Exact modular arithmetic on integers (00_scope.md R9). -/

namespace Sys2Proof.Machine

/-- z mod m, the mathematical remainder in [0, m−1] for any integer z, negative ones included (00_scope.md R9). -/
def modInt (z : Int) (m : Nat) : Nat := (z % (m : Int)).toNat

/-- x^e mod m for e < 2^n, by squaring over the n bits of e. -/
def powModBits (x m : Nat) : Nat → Nat → Nat
  | 0, _ => 1 % m
  | n + 1, e =>
    let h := powModBits x m n (e / 2)
    if e % 2 = 1 then h * h % m * x % m else h * h % m

/-- pow(x, e, m) = x^e mod m for every exponent the core uses, all below 2^256 (00_scope.md R9). Irreducible,
so that a proof cites `powMod_eq` and no unifier runs its 256 iterations. -/
@[irreducible] def powMod (x e m : Nat) : Nat := powModBits x m 256 e

/-- inv_m(x), by Fermat's little theorem: pow(x, m − 2, m) (00_scope.md R9, 40_field.md R140). Log entry 9. -/
def invMod (x m : Nat) : Nat := powMod x (m - 2) m

/-- The Montgomery radix R = 2^256 (00_scope.md R7). -/
def montRadix : Nat := 2 ^ 256

/-- The Montgomery product a·b·R⁻¹ mod m (40_field.md R136). -/
def montMul (a b m : Nat) : Nat := a * b * invMod (montRadix % m) m % m

/-- The exponent (p + 1)/4 of the square root (40_field.md R142). -/
def sqrtExponent : Nat := (curveP + 1) / 4

end Sys2Proof.Machine
end

