-- ==== Sys2Proof/Machine/Group.lean ====
section
/-! DEFINITION. The curve and its group law (00_scope.md R14, 41_point.md R161). -/

namespace Sys2Proof.Machine

/-- A point: infinity or an affine pair (00_scope.md R15). -/
inductive Point where
  | inf
  | aff (x y : Nat)
deriving DecidableEq, Repr

/-- The pair (x, y) as a point: INF if it is (0, 0) (10_state.md R24). -/
def Point.ofPair (x y : Nat) : Point := if x = 0 ∧ y = 0 then .inf else .aff x y

/-- The x-coordinate as a point is written, 0 for INF (41_point.md R162). -/
def Point.xOut : Point → Nat
  | .inf => 0
  | .aff x _ => x

/-- The y-coordinate as a point is written, 0 for INF (41_point.md R162). -/
def Point.yOut : Point → Nat
  | .inf => 0
  | .aff _ y => y

/-- isInf of a result (41_point.md R162). -/
def Point.isInf : Point → Bool
  | .inf => true
  | .aff _ _ => false

/-- onCurve(X, Y) (00_scope.md R14). -/
def onCurve (x y : Nat) : Bool :=
  decide ((x = 0 ∧ y = 0) ∨ modInt ((y : Int) * y - ((x : Int) * x * x + curveA * x + curveB)) curveP = 0)

/-- n / d in Fp: multiplication by inv_p(d) (41_point.md R161). -/
def divFp (n d : Int) : Nat := modInt (n * (invMod (modInt d curveP) curveP : Nat)) curveP

/-- x3 and y3 of the chord or tangent with slope l through (x1, y1), where x2 is the second x-coordinate (41_point.md
R161). -/
def chord (l x1 y1 x2 : Nat) : Point :=
  let x3 := modInt ((l : Int) * l - x1 - x2) curveP
  .aff x3 (modInt ((l : Int) * ((x1 : Int) - x3) - y1) curveP)

/-- dbl(P) (41_point.md R161). -/
def pointDbl : Point → Point
  | .inf => .inf
  | .aff x y =>
    if y = 0 then .inf
    else chord (divFp (3 * (x : Int) * x + curveA) (2 * (y : Int))) x y x

/-- add(P, Q), the cases in the order of 41_point.md R161. -/
def pointAdd : Point → Point → Point
  | .inf, q => q
  | .aff x1 y1, .inf => .aff x1 y1
  | .aff x1 y1, .aff x2 y2 =>
    if x1 = x2 ∧ (y1 + y2) % curveP = 0 then .inf
    else if x1 = x2 ∧ y1 = y2 then pointDbl (.aff x1 y1)
    else chord (divFp ((y1 : Int) - y2) ((x1 : Int) - x2)) x1 y1 x2

/-- [k]P as 41_point.md R172 defines it: P added to itself k times. The clear definition; `ladder` computes it. -/
def nsmulPoint : Nat → Point → Point
  | 0, _ => .inf
  | k + 1, p => pointAdd (nsmulPoint k p) p

/-- One iteration of the ladder for the scalar bit b: one add and one dbl whatever b is (the text after 41_point.md
R173). -/
def ladderStep (b : Bool) (r : Point × Point) : Point × Point :=
  if b then (pointAdd r.1 r.2, pointDbl r.2) else (pointDbl r.1, pointAdd r.1 r.2)

/-- The iterations for bits n−1 down to 0 of k, from the pair r. -/
def ladderBits (k : Nat) : Nat → Point × Point → Point × Point
  | 0, r => r
  | n + 1, r => ladderBits k n (ladderStep (k.testBit n) r)

/-- The Montgomery ladder over 256 bits (41_point.md R173 and the loop after it). Log entry 10. Irreducible,
so that no unifier runs it. -/
@[irreducible] def ladder (k : Nat) (p : Point) : Point := (ladderBits k 256 (.inf, p)).1

/-- S of 41_point.md R172: INF for k' = 0 or P = INF, otherwise [k']P. -/
def scalarMul (k : Nat) (p : Point) : Point :=
  if k = 0 ∨ p = .inf then .inf else ladder k p

end Sys2Proof.Machine
end

