-- ==== Sys2Proof/Machine/Tlv.lean ====
section
/-! DEFINITION. Parsing one DER element and a sequence of them, over a function that reads one byte (42_der.md). -/

namespace Sys2Proof.Machine

/-- A FORMAT error: its detail and the buffer offset where the violation was found (42_der.md R191, R192). -/
structure FormatError where
  detail : Detail
  pos : Nat
deriving DecidableEq, Repr

/-- What tlv returns: tag, length, value offset, next offset (42_der.md R194). -/
structure Tlv where
  tag : Byte
  len : Nat
  voff : Nat
  next : Nat
deriving DecidableEq, Repr

/-- The big-endian value of the n bytes from offset i (42_der.md R194). -/
def beValue (byte : Nat → Byte) (i : Nat) : Nat → Nat
  | 0 => 0
  | n + 1 => beValue byte i n * 256 + (byte (i + n)).toNat

/-- The end of tlv: the value must not run past the slice end (42_der.md R194). -/
def tlvValue (tag : Byte) (len v e : Nat) : Except FormatError Tlv :=
  if v + len > e then .error ⟨.shortValue, v⟩ else .ok ⟨tag, len, v, v + len⟩

/-- The long form of the length, with c length bytes (42_der.md R194). -/
def tlvLong (byte : Nat → Byte) (s e c : Nat) : Except FormatError Tlv :=
  if s + 2 + c > e then .error ⟨.truncLen, s + 1⟩
  else if byte (s + 2) = 0x00#8 then .error ⟨.nonminLen, s + 1⟩
  else
    let len := beValue byte (s + 2) c
    if len ≤ 0x7F then .error ⟨.nonminLen, s + 1⟩ else tlvValue (byte s) len (s + 2 + c) e

/-- tlv(s, e): one element of the slice [s, e) (42_der.md R194). -/
def tlv (byte : Nat → Byte) (s e : Nat) : Except FormatError Tlv :=
  if e - s < 2 then .error ⟨.truncHdr, s⟩
  else
    let l0 := (byte (s + 1)).toNat
    if l0 ≤ 0x7F then tlvValue (byte s) l0 (s + 2) e
    else if l0 = 0x80 then .error ⟨.indefLen, s + 1⟩
    else tlvLong byte s e (l0 &&& 0x7F)

/-- The loop of DSEQ: how many elements stand from offset i to `stop`, added to c (42_der.md R210). Every element has at
least two bytes, so `fuel` iterations do for a slice of at most `fuel` bytes. -/
def countElements (byte : Nat → Byte) (stop : Nat) : Nat → Nat → Nat → Except FormatError Nat
  | 0, _, c => .ok c
  | fuel + 1, i, c =>
    if i < stop then
      match tlv byte i stop with
      | .error e => .error e
      | .ok t => countElements byte stop fuel t.next (c + 1)
    else .ok c

/-- The signed two's complement value of the len bytes from offset v (42_der.md R205). -/
def signedValue (byte : Nat → Byte) (v len : Nat) : Int :=
  if (byte v).toNat ≥ 0x80 then (beValue byte v len : Int) - 2 ^ (8 * len) else beValue byte v len

end Sys2Proof.Machine
end

