-- ==== Sys2Proof/Machine/Operands.lean ====
section
/-! DEFINITION. The operand forms: each hands the operand to the rest of the command, or raises the error of its check. -/

namespace Sys2Proof.Machine

/-- checkField(i, m), then x[i] (40_field.md R121). -/
def withField (m : Nat) (i : RegIdx) (s : State) (k : Nat → Result) : Result :=
  if s.regNat i ≥ m then raised s .encoding .none (i.setWidth 12) else k (s.regNat i)

/-- checkPointFields(i), then (x[i], x[i+1]) (41_point.md R160). -/
def withPair (i : RegIdx) (s : State) (k : Nat → Nat → Result) : Result :=
  withField curveP i s fun x => withField curveP (pairSnd i) s fun y => k x y

/-- checkOnCurve(i), then the pair as a point (41_point.md R160). -/
def withOnCurve (i : RegIdx) (x y : Nat) (s : State) (k : Point → Result) : Result :=
  if onCurve x y then k (Point.ofPair x y) else raised s .domain .none (i.setWidth 12)

/-- A point operand in the pair with base i (41_point.md R160). -/
def withPoint (i : RegIdx) (s : State) (k : Point → Result) : Result :=
  withPair i s fun x y => withOnCurve i x y s k

/-- The answer of a command that writes the field element r to x[rd] (40_field.md R124). -/
def writeField (rd : RegIdx) (r : Nat) (s : State) : Result :=
  completed (s.setReg rd (BitVec.ofNat 256 r)) (zeroFlag r) false

/-- The answer of a command that writes the point S to the pair at rd (41_point.md R162). -/
def writePoint (rd : RegIdx) (S : Point) (s : State) : Result :=
  completed (s.setPair rd (BitVec.ofNat 256 S.xOut) (BitVec.ofNat 256 S.yOut)) S.isInf false

/-- raise FORMAT with a detail and a buffer offset (42_der.md R191, R192). -/
def raisedFormat (e : FormatError) (s : State) : Result :=
  raised s .format e.detail (BitVec.ofNat 12 e.pos)

/-- Hands on what a parse gave, or raises its error. -/
def withParse {α : Type} (r : Except FormatError α) (s : State) (k : α → Result) : Result :=
  match r with
  | .error e => raisedFormat e s
  | .ok a => k a

/-- The slice check and the first element of the slice [DER_PTR, DER_END) (42_der.md R190, R193, R194). -/
def withElement (s : State) (k : Tlv → Result) : Result :=
  if s.derPtr.toNat ≤ s.derEnd.toNat ∧ s.derEnd.toNat ≤ Config.derSize then
    withParse (tlv s.derByte s.derPtr.toNat s.derEnd.toNat) s k
  else raisedFormat ⟨.badSlice, s.derPtr.toNat⟩ s

/-- The slice's first element, whose tag must be the one the command requires (42_der.md R205, R210, R215). -/
def withTagged (tag : Byte) (s : State) (k : Tlv → Result) : Result :=
  withElement s fun t => if t.tag = tag then k t else raisedFormat ⟨.wrongTag, s.derPtr.toNat⟩ s

/-- DER_TAG, DER_LEN, DER_VOFF and DER_NEXT take an element's values (10_state.md R35). -/
def State.setDer (s : State) (tag : Byte) (len voff next : Nat) : State :=
  { s with
    derTag := tag, derLen := BitVec.ofNat 12 len, derVoff := BitVec.ofNat 12 voff, derNext := BitVec.ofNat 12 next }

/-- DER_CNT takes a sequence's element count (10_state.md R35). -/
def State.setCnt (s : State) (n : Nat) : State := { s with derCnt := BitVec.ofNat 12 n }

end Sys2Proof.Machine
end

