-- ==== Sys2Proof/Machine/Curve.lean ====
section
/-! DEFINITION. The meanings of the point commands (41_point.md). -/

namespace Sys2Proof.Machine

/-- PADD (41_point.md R165): all coordinate checks come before the curve checks (R160). -/
def execPadd (rd ra rb : RegIdx) (s : State) : Result :=
  withPair ra s fun x1 y1 => withPair rb s fun x2 y2 =>
    withOnCurve ra x1 y1 s fun P => withOnCurve rb x2 y2 s fun Q =>
      writePoint rd (pointAdd P Q) s

/-- PDBL (41_point.md R168). -/
def execPdbl (rd ra : RegIdx) (s : State) : Result :=
  withPoint ra s fun P => writePoint rd (pointDbl P) s

/-- PMUL (41_point.md R172): the scalar is reduced mod q first (R170) and never checked. -/
def execPmul (rd ra rb : RegIdx) (s : State) : Result :=
  withPoint ra s fun P => writePoint rd (scalarMul (s.regNat rb % curveQ) P) s

end Sys2Proof.Machine
end

