-- ==== Sys2Proof/Machine/Der.lean ====
section
/-! DEFINITION. The meanings of the DER commands (42_der.md). -/

namespace Sys2Proof.Machine

/-- DTLV (42_der.md R200). -/
def execDtlv (s : State) : Result :=
  withElement s fun t => completed (s.setDer t.tag t.len t.voff t.next) (zeroFlag t.len) false

/-- The value DINT writes: the INTEGER's value where a register can hold it, otherwise 0 (42_der.md R205). -/
def intRegValue (val : Int) : RegWord := if 0 ≤ val ∧ val < 2 ^ 256 then BitVec.ofInt 256 val else 0

/-- RG of DINT: the INTEGER's value is outside [0, 2^256) (42_der.md R205). -/
def intOutOfRange (val : Int) : Bool := !decide (0 ≤ val ∧ val < 2 ^ 256)

/-- DINT (42_der.md R205). A leading 0xFF byte of a negative value is not rejected (92_eei_decisions.md D21). -/
def execDint (rd : RegIdx) (s : State) : Result :=
  withTagged 0x02#8 s fun t =>
    if t.len = 0 then raisedFormat ⟨.emptyInt, t.voff⟩ s
    else if t.len ≥ 2 ∧ s.derByte t.voff = 0x00#8 ∧ (s.derByte (t.voff + 1)).toNat ≤ 0x7F then
      raisedFormat ⟨.nonminInt, t.voff⟩ s
    else
      let val := signedValue s.derByte t.voff t.len
      completed ((s.setReg rd (intRegValue val)).setDer 0x02#8 t.len t.voff t.next) (decide (val = 0))
        (intOutOfRange val)

/-- DSEQ (42_der.md R210): it counts the elements of the sequence, and an error in one is the command's error. -/
def execDseq (s : State) : Result :=
  withTagged 0x30#8 s fun t =>
    withParse (countElements s.derByte (t.voff + t.len) t.len t.voff 0) s fun c =>
      completed ((s.setDer 0x30#8 t.len t.voff t.next).setCnt c) (zeroFlag t.len) false

/-- DBIT (42_der.md R215): the unused-bits byte must be there and be 0. -/
def execDbit (s : State) : Result :=
  withTagged 0x03#8 s fun t =>
    if t.len = 0 ∨ s.derByte t.voff ≠ 0x00#8 then raisedFormat ⟨.badUnused, t.voff⟩ s
    else completed (s.setDer 0x03#8 (t.len - 1) (t.voff + 1) t.next) (zeroFlag (t.len - 1)) false

end Sys2Proof.Machine
end

