-- ==== Sys2Proof/Machine/Field.lean ====
section
/-! DEFINITION. The meanings of the field commands (40_field.md). -/

namespace Sys2Proof.Machine

/-- FADD (40_field.md R130). -/
def execFadd (m : Modulus) (rd ra rb : RegIdx) (s : State) : Result :=
  withField (modulusValue m) ra s fun a => withField (modulusValue m) rb s fun b =>
    writeField rd ((a + b) % modulusValue m) s

/-- FSUB (40_field.md R131). -/
def execFsub (m : Modulus) (rd ra rb : RegIdx) (s : State) : Result :=
  withField (modulusValue m) ra s fun a => withField (modulusValue m) rb s fun b =>
    writeField rd (modInt ((a : Int) - b) (modulusValue m)) s

/-- FNEG (40_field.md R132). -/
def execFneg (m : Modulus) (rd ra : RegIdx) (s : State) : Result :=
  withField (modulusValue m) ra s fun a => writeField rd ((modulusValue m - a) % modulusValue m) s

/-- FMUL (40_field.md R135). -/
def execFmul (m : Modulus) (rd ra rb : RegIdx) (s : State) : Result :=
  withField (modulusValue m) ra s fun a => withField (modulusValue m) rb s fun b =>
    writeField rd (a * b % modulusValue m) s

/-- MMUL (40_field.md R136). -/
def execMmul (m : Modulus) (rd ra rb : RegIdx) (s : State) : Result :=
  withField (modulusValue m) ra s fun a => withField (modulusValue m) rb s fun b =>
    writeField rd (montMul a b (modulusValue m)) s

/-- FINV (40_field.md R140): the ENCODING check comes before DIV_ZERO. -/
def execFinv (m : Modulus) (rd ra : RegIdx) (s : State) : Result :=
  withField (modulusValue m) ra s fun a =>
    if a = 0 then raised s .divZero .none (ra.setWidth 12)
    else writeField rd (powMod a (modulusValue m - 2) (modulusValue m)) s

/-- FSQRT (40_field.md R142): the negation of a root is (p − c) mod p, so the root 0 stays 0 whatever the parity bit
(90_conflicts.md C2). -/
def execFsqrt (par : Bool) (rd ra : RegIdx) (s : State) : Result :=
  withField curveP ra s fun a =>
    let c := powMod a sqrtExponent curveP
    if c * c % curveP ≠ a then raised s .noSqrt .none (ra.setWidth 12)
    else writeField rd (if c % 2 ≠ par.toNat then (curveP - c) % curveP else c) s

/-- FRED (40_field.md R145): any 256-bit value is accepted. -/
def execFred (m : Modulus) (rd ra : RegIdx) (s : State) : Result :=
  writeField rd (s.regNat ra % modulusValue m) s

/-- BRED (40_field.md R146): the 512-bit integer with x[ra] in its high half. -/
def execBred (m : Modulus) (rd ra rb : RegIdx) (s : State) : Result :=
  writeField rd ((s.regNat ra * 2 ^ 256 + s.regNat rb) % modulusValue m) s

/-- LDC (40_field.md R150): no constant is 0, so Z = 0. -/
def execLdc (rd k : RegIdx) (s : State) : Result :=
  completed (s.setReg rd (romSlot k.toNat)) false false

end Sys2Proof.Machine
end

