-- ==== Sys2Proof/Machine/Dispatch.lean ====
section
/-! DEFINITION. One arm per command: what the engine does with it. -/

namespace Sys2Proof.Machine

def exec (i : Instr) (s : State) : Host.Outcome State Fault Refusal :=
  match i with
  | .fadd m rd ra rb => Sys2Proof.Machine.execFadd m rd ra rb s
  | .fsub m rd ra rb => Sys2Proof.Machine.execFsub m rd ra rb s
  | .fneg m rd ra => Sys2Proof.Machine.execFneg m rd ra s
  | .fmul m rd ra rb => Sys2Proof.Machine.execFmul m rd ra rb s
  | .mmul m rd ra rb => Sys2Proof.Machine.execMmul m rd ra rb s
  | .finv m rd ra => Sys2Proof.Machine.execFinv m rd ra s
  | .fsqrt par rd ra => Sys2Proof.Machine.execFsqrt par rd ra s
  | .fred m rd ra => Sys2Proof.Machine.execFred m rd ra s
  | .bred m rd ra rb => Sys2Proof.Machine.execBred m rd ra rb s
  | .ldc rd k => Sys2Proof.Machine.execLdc rd k s
  | .padd rd ra rb => Sys2Proof.Machine.execPadd rd ra rb s
  | .pdbl rd ra => Sys2Proof.Machine.execPdbl rd ra s
  | .pmul rd ra rb => Sys2Proof.Machine.execPmul rd ra rb s
  | .dtlv => Sys2Proof.Machine.execDtlv s
  | .dint rd => Sys2Proof.Machine.execDint rd s
  | .dseq => Sys2Proof.Machine.execDseq s
  | .dbit => Sys2Proof.Machine.execDbit s

end Sys2Proof.Machine
end

