-- ==== Sys2Proof/Machine/Engine.lean ====
section
/-! DEFINITION. The engine's step, and what each scheduled event does. -/

namespace Sys2Proof.Machine

/-- The legality check and the command in CMD (30_encoding.md R95, R96): an illegal word raises ILLEGAL with POS 0. -/
def runCommand (s : State) : Result :=
  match decode s.cmd with
  | .ok i => exec i s
  | .error _ => raised s .illegal .none 0

/-- The engine's turn: its one step is enabled while BUSY = 1 (60_exceptions.md R236). With BUSY = 0 it has none, and the
turn changes nothing (log entry 2). -/
def engineTurn (s : State) : Result := if s.busy then runCommand s else .next s

/-- What one event does (00_scope.md R16). -/
def deliver (e : Event) (s : State) : Result :=
  match e with
  | .bus a => .next (s.busAccess a)
  | .engine => engineTurn s
  | .hardReset => .next s.hardReset

end Sys2Proof.Machine
end

