-- ==== Sys2Proof/Machine/Step.lean ====
section
/-! DEFINITION. One step of the core, and how a command word is placed where the next step runs it. -/

namespace Sys2Proof.Machine

/-- One step: the first scheduled event happens. With no event left the engine takes its turn, so a command in flight
completes (the weak fairness of 60_exceptions.md R236) and an idle core stays as it is (log entry 2). -/
def step (s : State) : Host.Outcome State Fault Refusal :=
  match s.events with
  | [] => engineTurn s
  | e :: rest => deliver e { s with events := rest }

/-- The state in which the command word w has been accepted (60_exceptions.md R235) and the engine's turn comes next.
The core fetches nothing (10_state.md R21): this stands for a host write of w to CMD (log entry 8). -/
def State.withFetchWord (s : State) (nbits w : Nat) : State :=
  { s.accept (BitVec.ofNat 32 (w % 2 ^ nbits)) with events := .engine :: s.events }

end Sys2Proof.Machine
end

