-- ==== Sys2Proof/Safety.lean ====
section
/-! DEFINITION. The terms the claims use: what a command reads and writes, how a command ends, the group law and the DER
grammar as relations, the hazard rule, and the invariant. None of them is used by the machine. -/

namespace Sys2Proof

open Machine

/-! ### What a command reads and writes (30_encoding.md R92) -/

/-- The operand registers a command reads. -/
def Instr.sources : Instr → List RegIdx
  | .fadd _ _ ra rb => [ra, rb]
  | .fsub _ _ ra rb => [ra, rb]
  | .fneg _ _ ra => [ra]
  | .fmul _ _ ra rb => [ra, rb]
  | .mmul _ _ ra rb => [ra, rb]
  | .finv _ _ ra => [ra]
  | .fsqrt _ _ ra => [ra]
  | .fred _ _ ra => [ra]
  | .bred _ _ ra rb => [ra, rb]
  | .ldc _ _ => []
  | .padd _ ra rb => [ra, ra + 1, rb, rb + 1]
  | .pdbl _ ra => [ra, ra + 1]
  | .pmul _ ra rb => [ra, ra + 1, rb]
  | .dtlv => []
  | .dint _ => []
  | .dseq => []
  | .dbit => []

/-- The operand registers a command writes: one register, a pair, or none. -/
def Instr.dests : Instr → List RegIdx
  | .fadd _ rd _ _ => [rd]
  | .fsub _ rd _ _ => [rd]
  | .fneg _ rd _ => [rd]
  | .fmul _ rd _ _ => [rd]
  | .mmul _ rd _ _ => [rd]
  | .finv _ rd _ => [rd]
  | .fsqrt _ rd _ => [rd]
  | .fred _ rd _ => [rd]
  | .bred _ rd _ _ => [rd]
  | .ldc rd _ => [rd]
  | .padd rd _ _ => [rd, rd + 1]
  | .pdbl rd _ => [rd, rd + 1]
  | .pmul rd _ _ => [rd, rd + 1]
  | .dtlv => []
  | .dint rd => [rd]
  | .dseq => []
  | .dbit => []

/-- The four DER commands (00_scope.md R5). -/
def derCommands (rd : RegIdx) : List Instr := [.dtlv, .dint rd, .dseq, .dbit]

/-- The causes a command can raise by its own rule (60_exceptions.md R231). ILLEGAL is raised before a command is known. -/
def Instr.causes : Instr → List Cause
  | .fadd _ _ _ _ => [.encoding]
  | .fsub _ _ _ _ => [.encoding]
  | .fneg _ _ _ => [.encoding]
  | .fmul _ _ _ _ => [.encoding]
  | .mmul _ _ _ _ => [.encoding]
  | .finv _ _ _ => [.encoding, .divZero]
  | .fsqrt _ _ _ => [.encoding, .noSqrt]
  | .fred _ _ _ => []
  | .bred _ _ _ _ => []
  | .ldc _ _ => []
  | .padd _ _ _ => [.encoding, .domain]
  | .pdbl _ _ => [.encoding, .domain]
  | .pmul _ _ _ => [.encoding, .domain]
  | .dtlv => [.format]
  | .dint _ => [.format]
  | .dseq => [.format]
  | .dbit => [.format]

/-! ### How a command ends (60_exceptions.md R236), every field that changes written out -/

/-- The state after a command raised an error: only STATUS, ERRCODE and ERRPOS differ. -/
def failed (s : State) (c : Cause) (d : Detail) (pos : Offset) : State :=
  { s with
    busy := false, done := true, err := true, z := false, rg := false, cause := c, detail := d, errpos := pos }

/-- The state after a command wrote r to x[rd] and completed with Z = (r = 0), RG = 0. -/
def wroteField (s : State) (rd : RegIdx) (r : Nat) : State :=
  { s with
    regs := s.regs.set rd.toNat (BitVec.ofNat 256 r) rd.isLt,
    busy := false, done := true, err := false, z := decide (r = 0), rg := false }

/-- The state after a command wrote the point S to the pair at rd, INF as (0, 0), and completed with Z = (S = INF),
RG = 0. -/
def wrotePoint (s : State) (rd : RegIdx) (S : Point) : State :=
  { s with
    regs := (s.regs.set rd.toNat (BitVec.ofNat 256 S.xOut) rd.isLt).set (rd + 1).toNat
      (BitVec.ofNat 256 S.yOut) (rd + 1).isLt,
    busy := false, done := true, err := false, z := decide (S = .inf), rg := false }

/-- The state after a DER command wrote its element's registers and completed. -/
def wroteDer (s : State) (tag : Byte) (len voff next : Nat) (z rg : Bool) : State :=
  { s with
    derTag := tag, derLen := BitVec.ofNat 12 len, derVoff := BitVec.ofNat 12 voff, derNext := BitVec.ofNat 12 next,
    busy := false, done := true, err := false, z := z, rg := rg }

/-! ### Points (00_scope.md R14, 41_point.md R161) -/

/-- x and y are below p and on the curve: (0, 0), or y² = x³ + a·x + b (mod p). -/
def OnCurve (x y : Nat) : Prop :=
  x < curveP ∧ y < curveP ∧ ((x = 0 ∧ y = 0) ∨ y * y ≡ x * x * x + curveA * x + curveB [MOD curveP])

/-- The pair at register i as a point operand. -/
def pairPoint (s : State) (i : RegIdx) : Point := Point.ofPair (s.regNat i) (s.regNat (i + 1))

/-- The pair at register i holds a point of the curve or INF. -/
def PairOnCurve (s : State) (i : RegIdx) : Prop := OnCurve (s.regNat i) (s.regNat (i + 1))

/-- S is the third point of the line of slope l through (x1, y1) and a point with x-coordinate x2, reflected. -/
def IsChordPoint (l x1 y1 x2 : Nat) (S : Point) : Prop :=
  ∃ x3 y3, S = .aff x3 y3 ∧ x3 < curveP ∧ y3 < curveP ∧
    (x3 : Int) ≡ (l : Int) * l - x1 - x2 [ZMOD curveP] ∧ (y3 : Int) ≡ (l : Int) * (x1 - x3) - y1 [ZMOD curveP]

/-- S = dbl(P): the slope is l with l·2y = 3x² + a. -/
def IsDouble : Point → Point → Prop
  | .inf, S => S = .inf
  | .aff x y, S =>
    if y = 0 then S = .inf
    else ∃ l : Nat, (l : Int) * (2 * y) ≡ 3 * (x : Int) * x + curveA [ZMOD curveP] ∧ IsChordPoint l x y x S

/-- S = add(P, Q), by the cases of 41_point.md R161 in their order: the slope is l with l·(xP − xQ) = yP − yQ. -/
def IsSum : Point → Point → Point → Prop
  | .inf, Q, S => S = Q
  | .aff x1 y1, .inf, S => S = .aff x1 y1
  | .aff x1 y1, .aff x2 y2, S =>
    if x1 = x2 ∧ (y1 + y2) % curveP = 0 then S = .inf
    else if x1 = x2 ∧ y1 = y2 then IsDouble (.aff x1 y1) S
    else ∃ l : Nat, (l : Int) * ((x1 : Int) - x2) ≡ (y1 : Int) - y2 [ZMOD curveP] ∧ IsChordPoint l x1 y1 x2 S

/-- S = [k]P: P added to itself k times (41_point.md R172). -/
def IsMultiple : Nat → Point → Point → Prop
  | 0, _, S => S = .inf
  | k + 1, P, S => ∃ T, IsMultiple k P T ∧ IsSum T P S

/-! ### The DER grammar (42_der.md R194, R205, R210) -/

/-- The big-endian value of the n bytes from offset i. -/
def bigEndian (byte : Nat → Byte) (i n : Nat) : Nat := ∑ j ∈ Finset.range n, (byte (i + j)).toNat * 256 ^ (n - 1 - j)

/-- t is the element at the start of the slice [s, e): a tag byte, a minimal short or long length, and a value inside the
slice. -/
def IsElement (byte : Nat → Byte) (s e : Nat) (t : Tlv) : Prop :=
  s + 2 ≤ e ∧ t.tag = byte s ∧ t.next = t.voff + t.len ∧ t.next ≤ e ∧
    (((byte (s + 1)).toNat ≤ 0x7F ∧ t.len = (byte (s + 1)).toNat ∧ t.voff = s + 2) ∨
      ∃ c, 0 < c ∧ (byte (s + 1)).toNat = 0x80 + c ∧ byte (s + 2) ≠ 0 ∧ t.len = bigEndian byte (s + 2) c ∧
        0x7F < t.len ∧ t.voff = s + 2 + c)

/-- The slice [s, e) starts with the violation d, found at offset pos (42_der.md R191, R192, R194). -/
def IsHeaderError (byte : Nat → Byte) (s e : Nat) (d : Detail) (pos : Nat) : Prop :=
  let l0 := (byte (s + 1)).toNat
  let c := l0 - 0x80
  let len := bigEndian byte (s + 2) c
  (e < s + 2 ∧ d = .truncHdr ∧ pos = s) ∨
  (s + 2 ≤ e ∧ l0 ≤ 0x7F ∧ e < s + 2 + l0 ∧ d = .shortValue ∧ pos = s + 2) ∨
  (s + 2 ≤ e ∧ l0 = 0x80 ∧ d = .indefLen ∧ pos = s + 1) ∨
  (s + 2 ≤ e ∧ 0x80 < l0 ∧ e < s + 2 + c ∧ d = .truncLen ∧ pos = s + 1) ∨
  (s + 2 + c ≤ e ∧ 0x80 < l0 ∧ (byte (s + 2) = 0 ∨ len ≤ 0x7F) ∧ d = .nonminLen ∧ pos = s + 1) ∨
  (s + 2 + c ≤ e ∧ 0x80 < l0 ∧ byte (s + 2) ≠ 0 ∧ 0x7F < len ∧ e < s + 2 + c + len ∧ d = .shortValue ∧
    pos = s + 2 + c)

/-- n elements stand one after the other from offset i to offset j, each inside the content that ends at `stop`. -/
inductive IsWalk (byte : Nat → Byte) (stop : Nat) : Nat → Nat → Nat → Prop where
  | start (i : Nat) : IsWalk byte stop i i 0
  | more {i j n : Nat} {t : Tlv} : IsWalk byte stop i j n → IsElement byte j stop t → IsWalk byte stop i t.next (n + 1)

/-- val is the signed two's complement value of the len bytes from offset v. -/
def IsSignedValue (byte : Nat → Byte) (v len : Nat) (val : Int) : Prop :=
  val ≡ bigEndian byte v len [ZMOD 256 ^ len] ∧ -(256 ^ len : Int) ≤ 2 * val ∧ 2 * val < 256 ^ len

/-- An INTEGER whose first content byte is 0x00 and second is at most 0x7F (42_der.md R191). -/
def LeadingZero (byte : Nat → Byte) (v len : Nat) : Prop := 2 ≤ len ∧ byte v = 0 ∧ (byte (v + 1)).toNat ≤ 0x7F

/-- DER_PTR ≤ DER_END ≤ 2048 (42_der.md R193). -/
def SliceOk (s : State) : Prop := s.derPtr.toNat ≤ s.derEnd.toNat ∧ s.derEnd.toNat ≤ 2048

/-- t is the element at the start of the slice the two DER pointers delimit. -/
def SliceElement (s : State) (t : Tlv) : Prop := SliceOk s ∧ IsElement s.derByte s.derPtr.toNat s.derEnd.toNat t

/-! ### Host accesses (20_memory.md) -/

/-- The step in which the access a happens next. -/
def hostStep (a : BusAccess) (s : State) : Host.Outcome State Fault Refusal :=
  step { s with events := .bus a :: s.events }

/-- Bits 1:0 of the address are 0 (20_memory.md R63). -/
def Aligned (a : Addr) : Prop := a.toNat % 4 = 0

/-- The operand-register window (20_memory.md R64). -/
def InRegWindow (a : Addr) : Prop := 0x400 ≤ a.toNat ∧ a.toNat < 0x600

/-- The DER buffer window (20_memory.md R64). -/
def InDerWindow (a : Addr) : Prop := 0x800 ≤ a.toNat

/-- The constant ROM (20_memory.md R64). -/
def InRom (a : Addr) : Prop := 0x200 ≤ a.toNat ∧ a.toNat < 0x300

/-- The reserved offsets (20_memory.md R67), for an aligned address. -/
def IsReserved (a : Addr) : Prop :=
  a.toNat = 0x018 ∨ a.toNat = 0x01C ∨ a.toNat = 0x03C ∨ (0x040 ≤ a.toNat ∧ a.toNat < 0x200) ∨
    (0x300 ≤ a.toNat ∧ a.toNat < 0x400) ∨ (0x600 ≤ a.toNat ∧ a.toNat < 0x800)

/-- The read-only control registers (10_state.md R26): ID, ERRCODE, ERRPOS and the DER result registers. -/
def IsReadOnly (a : Addr) : Prop := a.toNat ∈ [0x000, 0x010, 0x014, 0x028, 0x02C, 0x030, 0x034, 0x038]

/-- The writes that BUSY gates (20_memory.md R68): the register window, the DER buffer, DER_PTR, DER_END and CMD. -/
def IsGated (a : Addr) : Prop := InRegWindow a ∨ InDerWindow a ∨ a = 0x020 ∨ a = 0x024 ∨ a = 0x00C

/-! ### The hazard rule (70_reset_and_hazards.md R280) -/

/-- An access that must wait for completion: a read of an operand register, or a write of an operand register, the DER
buffer, DER_PTR, DER_END or CMD. -/
def MustWait : BusAccess → Prop
  | .read a => InRegWindow a
  | .write a _ => IsGated a

/-- The next event does not break the rule: while BUSY = 1 it is no access that must wait. -/
def Obeys (s : State) : Prop := ∀ a rest, s.events = .bus a :: rest → s.busy = true → ¬ MustWait a

/-- The next n steps from s all obey the rule. -/
def ObeysFor : Nat → State → Prop
  | 0, _ => True
  | n + 1, s => Obeys s ∧ ∀ t, step s = .next t → ObeysFor n t

/-! ### The invariant -/

/-- What every step keeps: the memory's canonical form, and the report registers and DER result registers as one
completion leaves them. -/
structure Inv (s : State) : Prop where
  /-- The memory is in its canonical form (log entry 5). -/
  memory : s.mem.wf = true
  /-- While BUSY = 1 no completion is reported (60_exceptions.md R235). -/
  inFlight : s.busy = true → s.done = false ∧ s.err = false ∧ s.z = false ∧ s.rg = false
  /-- Without ERR there is no cause, detail or position (60_exceptions.md R231). -/
  noError : s.err = false → s.cause = .none ∧ s.detail = .none ∧ s.errpos = 0
  /-- With ERR there is a cause, and Z and RG are 0 (10_state.md R28). -/
  error : s.err = true → s.cause ≠ .none ∧ s.z = false ∧ s.rg = false
  /-- A detail stands exactly with FORMAT (10_state.md R30). -/
  detail : s.detail ≠ .none ↔ s.cause = .format
  /-- An INTEGER out of range is not 0 (42_der.md R205). -/
  range : s.rg = true → s.z = false
  /-- The value and the remainder of the last DER element lie inside the buffer (10_state.md R35, 42_der.md R194). -/
  derResult : s.derVoff.toNat + s.derLen.toNat = s.derNext.toNat ∧ s.derNext.toNat ≤ 2048
  /-- Every element of a sequence has at least two bytes (42_der.md R210). -/
  derCount : 2 * s.derCnt.toNat ≤ 2048

end Sys2Proof
end

