-- ==== Sys2Proof/Certificates/Slice0/Obligations.lean ====
section
/-! DEFINITION. The statements for the provers. -/

open Sys2Proof Sys2Proof.Machine

/-! ### Encoding (30_encoding.md) -/

/-- Decoding the word of a well-formed command gives the command back, for every command and every operand its encoding
admits (R90, R91, R94). -/
def Obligations.DecodeOfEncode : Prop := ∀ i : Instr, i.wellFormed = true → decode (encode i) = .ok i

/-- A legal word has one meaning: it decodes to a well-formed command whose word it is (R90, R91, R95). -/
def Obligations.EncodeOfDecode : Prop :=
  ∀ (w : BusWord) (i : Instr), decode w = .ok i → i.wellFormed = true ∧ encode i = w

/-- A word is legal exactly when a row of the match and mask table selects it, and no two rows select the same word
(R94, R95). -/
def Obligations.LegalWordsAreTheTableRows : Prop :=
  ∀ w : BusWord, ((∃ i, decode w = .ok i) ↔ ∃ r ∈ opcodeRows, r.selects w = true) ∧
    ∀ r ∈ opcodeRows, ∀ r' ∈ opcodeRows, r.selects w = true → r'.selects w = true → r = r'

/-- The worked encodings of R99 decode to the commands they stand for, and these are encoded by those words. -/
def Obligations.WorkedEncodings : Prop :=
  ∀ x ∈ ([(0x04201000#32, .fmul .p 2 0 1), (0x04201001#32, .fmul .q 2 0 1), (0x07530002#32, .fsqrt true 5 3),
      (0x0A030000#32, .ldc 0 3), (0x10402000#32, .padd 4 0 2), (0x12208000#32, .pmul 2 0 8),
      (0x21A00000#32, .dint 10), (0x09601001#32, .bred .q 6 0 1)] : List (BusWord × Instr)),
    decode x.1 = .ok x.2 ∧ encode x.2 = x.1

/-- An illegal word in flight completes, at the engine's turn, with ILLEGAL at POS 0, whatever makes it illegal (R95,
R96). -/
def Obligations.IllegalWordsRaiseIllegal : Prop :=
  ∀ (s : State) (e : Illegal), s.busy = true → (s.events = [] ∨ s.events.head? = some .engine) →
    decode s.cmd = .error e → step s = .next (failed { s with events := s.events.tail } .illegal .none 0)

/-! ### The step (00_scope.md R16, 60_exceptions.md R235, R236) -/

/-- At the engine's turn, a legal word in flight runs as the command it decodes to, on the state without that turn, and an
idle core stays as it is (log entry 2). -/
def Obligations.StepRunsTheDecodedCommand : Prop :=
  ∀ (s : State) (i : Instr), (s.events = [] ∨ s.events.head? = some .engine) →
    (s.busy = true → decode s.cmd = .ok i →
      i.wellFormed = true ∧ step s = exec i { s with events := s.events.tail }) ∧
    (s.busy = false → step s = .next { s with events := s.events.tail })

/-- A word placed by withFetchWord is accepted as a host write to CMD accepts it, and the next step runs the command it
decodes to (60_exceptions.md R235; the placing is the model's, log entry 8). -/
def Obligations.AcceptedWordRunsNext : Prop :=
  ∀ (s : State) (w : BusWord) (i : Instr), decode w = .ok i → s.busy = false →
    ∃ t, hostStep (.write 0x00C w) s = .next { t with resp := some .writeDone } ∧ t.resp = s.resp ∧
      step (s.withFetchWord 32 w.toNat) = exec i t

/-- Every step goes on: no state stops the core. A command in flight completes (60_exceptions.md R236) and no error stops
the core (R230); that an idle step answers a next state is the model's choice of log entry 2, and that a misaligned
access is a next state and no fault is log entry 3. -/
def Obligations.EveryStepGoesOn : Prop := ∀ s : State, ∃ t, step s = .next t

/-- Every command completes, with or without an error, whatever the operands hold: BUSY falls and DONE rises
(60_exceptions.md R236). -/
def Obligations.EveryCommandCompletes : Prop :=
  ∀ (i : Instr) (s : State), ∃ t, exec i s = .next t ∧ t.busy = false ∧ t.done = true

/-- Once the host has made its last access, a command in flight completes: one step after the schedule has run out the
core is idle (60_exceptions.md R236, weak fairness; the model's choice of log entry 2). -/
def Obligations.ScheduleEndsIdle : Prop :=
  ∀ s : State, ∃ t : State, Sys2Proof.core.run (s.events.length + 1) s = .next t ∧ t.busy = false ∧ t.events = []

/-- An error is precise: the state after it is the state before it but for STATUS, ERRCODE and ERRPOS (60_exceptions.md
R236), and it carries a cause of its command, with a detail exactly for FORMAT (R231). -/
def Obligations.ErrorsArePrecise : Prop :=
  ∀ (i : Instr) (s t : State), exec i s = .next t → t.err = true →
    t = failed s t.cause t.detail t.errpos ∧ t.cause ∈ i.causes ∧ (t.detail ≠ .none ↔ t.cause = .format)

/-- A command writes its destination registers, the report and, if it is a DER command, the DER result registers, and
nothing else: no other register, no byte of the buffer, no DER pointer, no CTRL, no CMD, no OVR (30_encoding.md R92,
10_state.md R22, 20_memory.md R75). A command without error leaves ERRCODE and ERRPOS. -/
def Obligations.CommandsWriteOnlyTheirDestination : Prop :=
  ∀ (i : Instr) (s t : State), exec i s = .next t →
    (∀ j, j ∉ i.dests → t.reg j = s.reg j) ∧
    (∀ a, t.derByte a = s.derByte a) ∧ t.mem = s.mem ∧ t.epoch = s.epoch ∧
    t.id = s.id ∧ t.ie = s.ie ∧ t.ovr = s.ovr ∧ t.cmd = s.cmd ∧ t.derPtr = s.derPtr ∧ t.derEnd = s.derEnd ∧
    t.events = s.events ∧ t.resp = s.resp ∧
    ((∀ rd, i ∉ derCommands rd) →
      t.derTag = s.derTag ∧ t.derLen = s.derLen ∧ t.derVoff = s.derVoff ∧ t.derNext = s.derNext) ∧
    (i ≠ .dseq → t.derCnt = s.derCnt) ∧
    (t.err = false → t.cause = s.cause ∧ t.detail = s.detail ∧ t.errpos = s.errpos)

/-- A command reads its source registers and no other: two states that differ in other registers only end alike, and
their destinations hold the same values if there was no error (30_encoding.md R92). -/
def Obligations.CommandsReadOnlyTheirSources : Prop :=
  ∀ (i : Instr) (s s' : State), s' = { s with regs := s'.regs } → (∀ j ∈ i.sources, s'.reg j = s.reg j) →
    ∃ t t', exec i s = .next t ∧ exec i s' = .next t' ∧ t' = { t with regs := t'.regs } ∧
      (t.err = false → ∀ j ∈ i.dests, t'.reg j = t.reg j)

/-! ### Field commands (40_field.md) -/

/-- The operand check: each field command checks ra, then rb, and raises ENCODING with the register's index; FRED and
BRED take any value (R121). -/
def Obligations.FieldOperandsAreCheckedInOrder : Prop :=
  ∀ (m : Modulus) (par : Bool) (rd ra rb : RegIdx) (s : State),
    (modulusValue m ≤ s.regNat ra →
      ∀ i ∈ [Instr.fadd m rd ra rb, .fsub m rd ra rb, .fneg m rd ra, .fmul m rd ra rb, .mmul m rd ra rb,
        .finv m rd ra], exec i s = .next (failed s .encoding .none (ra.setWidth 12))) ∧
    (s.regNat ra < modulusValue m → modulusValue m ≤ s.regNat rb →
      ∀ i ∈ [Instr.fadd m rd ra rb, .fsub m rd ra rb, .fmul m rd ra rb, .mmul m rd ra rb],
        exec i s = .next (failed s .encoding .none (rb.setWidth 12))) ∧
    (curveP ≤ s.regNat ra → exec (.fsqrt par rd ra) s = .next (failed s .encoding .none (ra.setWidth 12))) ∧
    (∀ i ∈ [Instr.fred m rd ra, .bred m rd ra rb], ∃ t, exec i s = .next t ∧ t.err = false)

/-- FADD, FSUB and FNEG complete with the reduced sum, difference and negation (R130, R131, R132). -/
def Obligations.SumsAndDifferences : Prop :=
  ∀ (m : Modulus) (rd ra rb : RegIdx) (s : State), s.regNat ra < modulusValue m → s.regNat rb < modulusValue m →
    (∃ r, r < modulusValue m ∧ (r : Int) ≡ (s.regNat ra : Int) + s.regNat rb [ZMOD modulusValue m] ∧
      exec (.fadd m rd ra rb) s = .next (wroteField s rd r)) ∧
    (∃ r, r < modulusValue m ∧ (r : Int) ≡ (s.regNat ra : Int) - s.regNat rb [ZMOD modulusValue m] ∧
      exec (.fsub m rd ra rb) s = .next (wroteField s rd r)) ∧
    (∃ r, r < modulusValue m ∧ (r : Int) ≡ -(s.regNat ra : Int) [ZMOD modulusValue m] ∧
      exec (.fneg m rd ra) s = .next (wroteField s rd r))

/-- FMUL completes with the reduced product, and MMUL with the Montgomery product: r·2^256 = a·b mod m (R135, R136). -/
def Obligations.Products : Prop :=
  ∀ (m : Modulus) (rd ra rb : RegIdx) (s : State), s.regNat ra < modulusValue m → s.regNat rb < modulusValue m →
    (∃ r, r < modulusValue m ∧ r ≡ s.regNat ra * s.regNat rb [MOD modulusValue m] ∧
      exec (.fmul m rd ra rb) s = .next (wroteField s rd r)) ∧
    (∃ r, r < modulusValue m ∧ r * 2 ^ 256 ≡ s.regNat ra * s.regNat rb [MOD modulusValue m] ∧
      exec (.mmul m rd ra rb) s = .next (wroteField s rd r))

/-- FINV of a nonzero element completes with its inverse, and FINV of 0 raises DIV_ZERO(ra) (R140, 00_scope.md R9). -/
def Obligations.FinvWritesTheInverse : Prop :=
  ∀ (m : Modulus) (rd ra : RegIdx) (s : State), s.regNat ra < modulusValue m →
    (0 < s.regNat ra → ∃ r, 0 < r ∧ r < modulusValue m ∧ s.regNat ra * r ≡ 1 [MOD modulusValue m] ∧
      exec (.finv m rd ra) s = .next (wroteField s rd r)) ∧
    (s.regNat ra = 0 → exec (.finv m rd ra) s = .next (failed s .divZero .none (ra.setWidth 12)))

/-- FSQRT of a square mod p completes with a root of the wanted parity (the root 0 of 0 has parity 0 whatever was
wanted, 90_conflicts.md C2), and FSQRT of any other element raises NO_SQRT(ra) (R142). -/
def Obligations.FsqrtWritesTheRoot : Prop :=
  ∀ (par : Bool) (rd ra : RegIdx) (s : State), s.regNat ra < curveP →
    ((∃ y, y * y ≡ s.regNat ra [MOD curveP]) →
      ∃ c, c < curveP ∧ c * c ≡ s.regNat ra [MOD curveP] ∧ (0 < s.regNat ra → c % 2 = par.toNat) ∧
        exec (.fsqrt par rd ra) s = .next (wroteField s rd c)) ∧
    ((¬ ∃ y, y * y ≡ s.regNat ra [MOD curveP]) →
      exec (.fsqrt par rd ra) s = .next (failed s .noSqrt .none (ra.setWidth 12)))

/-- FRED and BRED complete with the remainder of the 256-bit and of the 512-bit integer (R145, R146). -/
def Obligations.ReductionsWriteTheRemainder : Prop :=
  ∀ (m : Modulus) (rd ra rb : RegIdx) (s : State),
    exec (.fred m rd ra) s = .next (wroteField s rd ((s.reg ra).toNat % modulusValue m)) ∧
    exec (.bred m rd ra rb) s = .next (wroteField s rd ((s.reg ra ++ s.reg rb).toNat % modulusValue m))

/-- LDC completes with the domain constant of its slot and Z = 0 (R150, 10_state.md R34). -/
def Obligations.LdcLoadsTheConstant : Prop :=
  ∀ (rd k : RegIdx) (v : Nat) (s : State),
    [0xFFFFFFFF00000001000000000000000000000000FFFFFFFFFFFFFFFFFFFFFFFF,
      0xFFFFFFFF00000001000000000000000000000000FFFFFFFFFFFFFFFFFFFFFFFC,
      0x5AC635D8AA3A93E7B3EBBD55769886BC651D06B0CC53B0F63BCE3C3E27D2604B,
      0x6B17D1F2E12C4247F8BCE6E563A440F277037D812DEB33A0F4A13945D898C296,
      0x4FE342E2FE1A7F9B8EE7EB4A7C0F9E162BCE33576B315ECECBB6406837BF51F5,
      0xFFFFFFFF00000000FFFFFFFFFFFFFFFFBCE6FAADA7179E84F3B9CAC2FC632551, 1][k.toNat]? = some v →
    exec (.ldc rd k) s = .next (wroteField s rd v) ∧ (wroteField s rd v).z = false

/-- Every value a field command writes is in [0, m−1]; LDC writes the constant itself (R122). -/
def Obligations.FieldResultsAreReduced : Prop :=
  ∀ (m : Modulus) (par : Bool) (rd ra rb k : RegIdx) (s t : State), t.err = false →
    (∀ i ∈ [Instr.fadd m rd ra rb, .fsub m rd ra rb, .fneg m rd ra, .fmul m rd ra rb, .mmul m rd ra rb, .finv m rd ra,
      .fred m rd ra, .bred m rd ra rb], exec i s = .next t → t.regNat rd < modulusValue m) ∧
    (exec (.fsqrt par rd ra) s = .next t → t.regNat rd < curveP) ∧
    (exec (.ldc rd k) s = .next t → t.reg rd = romSlot k.toNat)

/-- The flags of the field commands: Z is 1 exactly when the value written is zero and RG is 0, and both are 0 after an
error (R124). -/
def Obligations.FieldFlags : Prop :=
  ∀ (m : Modulus) (par : Bool) (rd ra rb k : RegIdx) (s t : State), k.toNat ≤ 6 →
    ∀ i ∈ [Instr.fadd m rd ra rb, .fsub m rd ra rb, .fneg m rd ra, .fmul m rd ra rb, .mmul m rd ra rb, .finv m rd ra,
      .fsqrt par rd ra, .fred m rd ra, .bred m rd ra rb, .ldc rd k], exec i s = .next t →
        (t.err = false → (t.z = true ↔ t.regNat rd = 0) ∧ t.rg = false) ∧ (t.err = true → t.z = false ∧ t.rg = false)

/-! ### Point commands (41_point.md) -/

/-- The point operand check: every coordinate in order, then the curve, first point first; the pair (0, 0) passes; the
scalar of PMUL is not checked; a command whose checks pass ends without error (R160). -/
def Obligations.PointOperandsAreCheckedInOrder : Prop :=
  ∀ (rd ra rb : RegIdx) (s : State),
    (∀ (n : Nat) (j : RegIdx), [ra, ra + 1, rb, rb + 1][n]? = some j →
      (∀ j' ∈ [ra, ra + 1, rb, rb + 1].take n, s.regNat j' < curveP) → curveP ≤ s.regNat j →
        exec (.padd rd ra rb) s = .next (failed s .encoding .none (j.setWidth 12))) ∧
    ((∀ j ∈ [ra, ra + 1, rb, rb + 1], s.regNat j < curveP) →
      (¬ PairOnCurve s ra → exec (.padd rd ra rb) s = .next (failed s .domain .none (ra.setWidth 12))) ∧
      (PairOnCurve s ra → ¬ PairOnCurve s rb →
        exec (.padd rd ra rb) s = .next (failed s .domain .none (rb.setWidth 12))) ∧
      (PairOnCurve s ra → PairOnCurve s rb → ∃ t, exec (.padd rd ra rb) s = .next t ∧ t.err = false)) ∧
    (∀ i ∈ [Instr.pdbl rd ra, .pmul rd ra rb],
      (curveP ≤ s.regNat ra → exec i s = .next (failed s .encoding .none (ra.setWidth 12))) ∧
      (s.regNat ra < curveP → curveP ≤ s.regNat (ra + 1) →
        exec i s = .next (failed s .encoding .none ((ra + 1).setWidth 12))) ∧
      (s.regNat ra < curveP → s.regNat (ra + 1) < curveP → ¬ PairOnCurve s ra →
        exec i s = .next (failed s .domain .none (ra.setWidth 12))) ∧
      (PairOnCurve s ra → ∃ t, exec i s = .next t ∧ t.err = false)) ∧
    (s.regNat ra = 0 → s.regNat (ra + 1) = 0 → PairOnCurve s ra)

/-- PADD of two points of the curve completes with their sum by the group law: its slope exists in every case, so no
division by zero occurs (R161, R165). -/
def Obligations.PaddWritesTheSum : Prop :=
  ∀ (rd ra rb : RegIdx) (s : State), PairOnCurve s ra → PairOnCurve s rb →
    ∃ S, IsSum (pairPoint s ra) (pairPoint s rb) S ∧ exec (.padd rd ra rb) s = .next (wrotePoint s rd S)

/-- PDBL of a point of the curve completes with its double (R161, R168). -/
def Obligations.PdblWritesTheDouble : Prop :=
  ∀ (rd ra : RegIdx) (s : State), PairOnCurve s ra →
    ∃ S, IsDouble (pairPoint s ra) S ∧ exec (.pdbl rd ra) s = .next (wrotePoint s rd S)

/-- PMUL of a point of the curve completes with the exact multiple: the point added to itself x[rb] mod q times
(R170, R172). -/
def Obligations.PmulWritesTheMultiple : Prop :=
  ∀ (rd ra rb : RegIdx) (s : State), PairOnCurve s ra →
    ∃ S, IsMultiple (s.regNat rb % curveQ) (pairPoint s ra) S ∧ exec (.pmul rd ra rb) s = .next (wrotePoint s rd S)

/-- The scalar is reduced mod q first: congruent scalars give the same end; a scalar that is 0 mod q, or a point at
infinity, gives infinity (R170). -/
def Obligations.ScalarIsReducedFirst : Prop :=
  ∀ (rd ra rb rb' : RegIdx) (s : State),
    (s.regNat rb ≡ s.regNat rb' [MOD curveQ] → exec (.pmul rd ra rb) s = exec (.pmul rd ra rb') s) ∧
    (PairOnCurve s ra → (s.regNat rb ≡ 0 [MOD curveQ] ∨ pairPoint s ra = .inf) →
      exec (.pmul rd ra rb) s = .next (wrotePoint s rd .inf))

/-- A point command that ends without error leaves a point of the curve, or INF, in its destination pair (R160, R161,
10_state.md R24). -/
def Obligations.PointResultsAreOnTheCurve : Prop :=
  ∀ (rd ra rb : RegIdx) (s t : State), ∀ i ∈ [Instr.padd rd ra rb, .pdbl rd ra, .pmul rd ra rb],
    exec i s = .next t → t.err = false → PairOnCurve t rd

/-- The flags of the point commands: Z says that the pair written is INF = (0, 0), and RG is 0 (R162). -/
def Obligations.PointFlags : Prop :=
  ∀ (rd ra rb : RegIdx) (s t : State), ∀ i ∈ [Instr.padd rd ra rb, .pdbl rd ra, .pmul rd ra rb],
    exec i s = .next t → t.err = false →
      (t.z = true ↔ t.regNat rd = 0 ∧ t.regNat (rd + 1) = 0) ∧ t.rg = false

/-- The laws of the group that PADD shows: it commutes, the point at infinity is neutral on either side, and a point and
its negation give infinity (R165). -/
def Obligations.PaddGroupLaws : Prop :=
  ∀ (rd ra rb : RegIdx) (s : State), PairOnCurve s ra → PairOnCurve s rb →
    exec (.padd rd ra rb) s = exec (.padd rd rb ra) s ∧
    (pairPoint s rb = .inf → exec (.padd rd ra rb) s = .next (wrotePoint s rd (pairPoint s ra))) ∧
    (s.regNat ra = s.regNat rb → s.regNat (rb + 1) = (curveP - s.regNat (ra + 1)) % curveP →
      exec (.padd rd ra rb) s = .next (wrotePoint s rd .inf))

/-! ### DER commands (42_der.md) -/

/-- The slice check comes first: unless DER_PTR ≤ DER_END ≤ 2048, every DER command raises FORMAT(BAD_SLICE) at DER_PTR
(R193). -/
def Obligations.SliceIsCheckedFirst : Prop :=
  ∀ (rd : RegIdx) (s : State), ¬ SliceOk s →
    ∀ i ∈ derCommands rd, exec i s = .next (failed s .format .badSlice s.derPtr)

/-- A violation in the element's header ends every DER command with its detail and offset, before any tag is looked at
(R192, R194, R210). -/
def Obligations.HeaderErrorsComeNext : Prop :=
  ∀ (rd : RegIdx) (s : State) (d : Detail) (pos : Nat), SliceOk s →
    IsHeaderError s.derByte s.derPtr.toNat s.derEnd.toNat d pos →
      ∀ i ∈ derCommands rd, exec i s = .next (failed s .format d (BitVec.ofNat 12 pos))

/-- DTLV completes with the slice's element, Z telling an empty value, and a DTLV that ends without error found an element
(R194, R200). -/
def Obligations.DtlvWritesTheElement : Prop :=
  ∀ s : State,
    (∀ t, SliceElement s t → exec .dtlv s = .next (wroteDer s t.tag t.len t.voff t.next (decide (t.len = 0)) false)) ∧
    (∀ u, exec .dtlv s = .next u → u.err = false → ∃ t, SliceElement s t)

/-- DINT, DSEQ and DBIT require their tag: any other raises FORMAT(WRONG_TAG) at the tag (R205, R210, R215, R192). -/
def Obligations.WrongTagsAreRejected : Prop :=
  ∀ (rd : RegIdx) (s : State) (t : Tlv), SliceElement s t →
    ∀ x ∈ [(Instr.dint rd, 0x02#8), (.dseq, 0x30#8), (.dbit, 0x03#8)], t.tag ≠ x.2 →
      exec x.1 s = .next (failed s .format .wrongTag s.derPtr)

/-- DINT of an INTEGER completes with its signed value where a register holds it, otherwise with 0 and RG = 1; Z tells
the value 0 (R205). -/
def Obligations.DintWritesTheInteger : Prop :=
  ∀ (rd : RegIdx) (s : State) (t : Tlv) (val : Int), SliceElement s t → t.tag = 0x02 → 0 < t.len →
    ¬ LeadingZero s.derByte t.voff t.len → IsSignedValue s.derByte t.voff t.len val →
      exec (.dint rd) s = .next
        { wroteDer s 0x02 t.len t.voff t.next (decide (val = 0)) (decide (val < 0 ∨ 2 ^ 256 ≤ val)) with
          regs := s.regs.set rd.toNat (if val < 0 ∨ 2 ^ 256 ≤ val then 0 else BitVec.ofNat 256 val.toNat) rd.isLt }

/-- DINT rejects an INTEGER without content, and one with an unnecessary leading zero byte, at the value's offset
(R205, R191, R192). -/
def Obligations.DintRejectsBadIntegers : Prop :=
  ∀ (rd : RegIdx) (s : State) (t : Tlv), SliceElement s t → t.tag = 0x02 →
    (t.len = 0 → exec (.dint rd) s = .next (failed s .format .emptyInt (BitVec.ofNat 12 t.voff))) ∧
    (LeadingZero s.derByte t.voff t.len →
      exec (.dint rd) s = .next (failed s .format .nonminInt (BitVec.ofNat 12 t.voff)))

/-- DSEQ of a SEQUENCE whose content is n elements completes with DER_CNT = n; a violation in an element is the command's
error, with that element's own offset; and a DSEQ that ends without error found elements up to the content's end
(R210). -/
def Obligations.DseqCountsTheElements : Prop :=
  ∀ (s : State) (t : Tlv), SliceElement s t → t.tag = 0x30 →
    (∀ n, IsWalk s.derByte (t.voff + t.len) t.voff (t.voff + t.len) n →
      exec .dseq s = .next
        { wroteDer s 0x30 t.len t.voff t.next (decide (t.len = 0)) false with derCnt := BitVec.ofNat 12 n }) ∧
    (∀ i n d pos, IsWalk s.derByte (t.voff + t.len) t.voff i n → i < t.voff + t.len →
      IsHeaderError s.derByte i (t.voff + t.len) d pos →
        exec .dseq s = .next (failed s .format d (BitVec.ofNat 12 pos))) ∧
    (∀ u, exec .dseq s = .next u → u.err = false →
      IsWalk s.derByte (t.voff + t.len) t.voff (t.voff + t.len) u.derCnt.toNat)

/-- DBIT of a BIT STRING whose unused-bits byte is 0 completes with the octets after it; without that byte, or with
another value of it, it raises FORMAT(BAD_UNUSED) at the value's offset (R215). -/
def Obligations.DbitWritesTheOctets : Prop :=
  ∀ (s : State) (t : Tlv), SliceElement s t → t.tag = 0x03 →
    (0 < t.len → s.derByte t.voff = 0 →
      exec .dbit s = .next (wroteDer s 0x03 (t.len - 1) (t.voff + 1) t.next (decide (t.len = 1)) false)) ∧
    ((t.len = 0 ∨ s.derByte t.voff ≠ 0) →
      exec .dbit s = .next (failed s .format .badUnused (BitVec.ofNat 12 t.voff)))

/-- The flags of the DER commands that end without error (R195, R205): Z of DTLV, DSEQ and DBIT says that DER_LEN is 0,
with RG = 0. A DINT parsed an INTEGER; RG says that its signed value is outside [0, 2^256), and Z that it is 0. The
register holds 0 if RG = 1, and otherwise Z says that it holds 0. -/
def Obligations.DerFlags : Prop :=
  ∀ (rd : RegIdx) (s t : State), t.err = false →
    (∀ i ∈ [Instr.dtlv, .dseq, .dbit], exec i s = .next t → (t.z = true ↔ t.derLen = 0) ∧ t.rg = false) ∧
    (exec (.dint rd) s = .next t →
      (∃ e val, SliceElement s e ∧ e.tag = 0x02 ∧ 0 < e.len ∧ IsSignedValue s.derByte e.voff e.len val) ∧
      (∀ e val, SliceElement s e → IsSignedValue s.derByte e.voff e.len val →
        (t.rg = true ↔ val < 0 ∨ 2 ^ 256 ≤ val) ∧ (t.z = true ↔ val = 0)) ∧
      (t.rg = true → t.z = false ∧ t.regNat rd = 0) ∧ (t.rg = false → (t.z = true ↔ t.regNat rd = 0)))

/-- A DER command reads no byte outside its slice: two states that differ in other bytes of the buffer only end alike, so
an unspecified byte outside the slice never matters (R190, 70_reset_and_hazards.md R273). -/
def Obligations.DerCommandsReadOnlyTheirSlice : Prop :=
  ∀ (rd : RegIdx) (s s' : State), s' = { s with mem := s'.mem, epoch := s'.epoch } →
    (∀ a, s.derPtr.toNat ≤ a → a < s.derEnd.toNat → s'.derByte a = s.derByte a) →
      ∀ i ∈ derCommands rd, ∃ t t', exec i s = .next t ∧ exec i s' = .next t' ∧
        t' = { t with mem := t'.mem, epoch := t'.epoch }

/-! ### Host accesses (20_memory.md, 10_state.md): `resp`, the answer to an access, is the model's field (log entry 4) -/

/-- Acceptance: a write of w to CMD while idle starts the command and clears the last report, and nothing else changes;
a write to CMD while BUSY = 1 is dropped (60_exceptions.md R235). That the dropped write is answered like a stored one is
the model's choice (log entry 4). -/
def Obligations.CommandAcceptance : Prop :=
  ∀ (s : State) (w : BusWord),
    (s.busy = false → hostStep (.write 0x00C w) s = .next
      { s with
        cmd := w, busy := true, done := false, err := false, z := false, rg := false, cause := .none,
        detail := .none, errpos := 0, resp := some .writeDone }) ∧
    (s.busy = true → hostStep (.write 0x00C w) s = .next { s with ovr := true, resp := some .writeDone })

/-- A misaligned access is answered by a bus error, a read with data 0, and changes no state (R63). That the answer is a
field of a next state is the model's (log entries 3 and 4). -/
def Obligations.MisalignedAccessIsABusError : Prop :=
  ∀ (s : State) (a : Addr) (d : BusWord), a.extractLsb' 0 2 ≠ 0 →
    hostStep (.read a) s = .next { s with resp := some (.readError 0) } ∧
    hostStep (.write a d) s = .next { s with resp := some .writeError }

/-- BUSY gating, row by row (R68). That a dropped or ignored write is answered like a stored one is the model's choice (log
entry 4). -/
def Obligations.BusyGatesTheWindow : Prop :=
  ∀ (s : State) (a : Addr) (d : BusWord), s.busy = true → Aligned a →
    (InRegWindow a → hostStep (.read a) s = .next { s with resp := some (.readData 0) }) ∧
    (IsGated a → hostStep (.write a d) s = .next { s with ovr := true, resp := some .writeDone }) ∧
    (¬ InRegWindow a → a ≠ 0x008 → ∃ v, hostStep (.read a) s = .next { s with resp := some (.readData v) } ∧
      hostStep (.read a) { s with busy := false } = .next { s with busy := false, resp := some (.readData v) }) ∧
    (IsReadOnly a ∨ InRom a ∨ IsReserved a → hostStep (.write a d) s = .next { s with resp := some .writeDone }) ∧
    (hostStep (.write 0x008 d) s = .next
      { s with done := s.done && !d.getLsbD 1, ovr := s.ovr && !d.getLsbD 5, resp := some .writeDone }) ∧
    (d.getLsbD 1 = false → hostStep (.write 0x004 d) s = .next
      { s with ie := d.getLsbD 0, resp := some .writeDone }) ∧
    (d.getLsbD 1 = true → hostStep (.write 0x004 d) s = hostStep (.write 0x004 d) { s with busy := false })

/-- A read changes nothing but the answer, and a write to any offset but CMD can be repeated without further effect
(R66). -/
def Obligations.ReadsAndRepeatedWritesChangeNothing : Prop :=
  ∀ (s : State) (a : Addr) (d : BusWord), s.mem.wf = true →
    (∃ r, hostStep (.read a) s = .next { s with resp := some r }) ∧
    (∀ t, a ≠ 0x00C → hostStep (.write a d) s = .next t → hostStep (.write a d) t = .next t)

/-- Reserved offsets and constant slot 7 read 0; writes to reserved offsets and to the ROM are ignored without error and
without OVR (R67). -/
def Obligations.ReservedOffsetsReadZero : Prop :=
  ∀ (s : State) (a : Addr) (d : BusWord), Aligned a →
    (IsReserved a ∨ (0x2E0 ≤ a.toNat ∧ a.toNat < 0x300) →
      hostStep (.read a) s = .next { s with resp := some (.readData 0) }) ∧
    (IsReserved a ∨ InRom a → hostStep (.write a d) s = .next { s with resp := some .writeDone })

/-- Word j of register i, big-endian, at 0x400 + 32i + 4j: while idle a write replaces exactly those 32 bits, and a read
answers them (R62, R64, R65). -/
def Obligations.RegisterWordsAreBigEndian : Prop :=
  ∀ (s : State) (i : RegIdx) (j : Nat) (a : Addr) (d : BusWord), s.busy = false → j < 8 →
    a.toNat = 0x400 + 32 * i.toNat + 4 * j →
      (∃ t, hostStep (.write a d) s = .next t ∧ t = { s with regs := t.regs, resp := some .writeDone } ∧
        (∀ i', i' ≠ i → t.reg i' = s.reg i') ∧
        ∀ k, k < 256 → (t.reg i).getLsbD k =
          if 224 - 32 * j ≤ k ∧ k < 256 - 32 * j then d.getLsbD (k - (224 - 32 * j)) else (s.reg i).getLsbD k) ∧
      ∃ v, hostStep (.read a) s = .next { s with resp := some (.readData v) } ∧
        ∀ k, k < 32 → v.getLsbD k = (s.reg i).getLsbD (224 - 32 * j + k)

/-- The word of the DER buffer at 0x800 + 4n, first byte most significant: while idle a write replaces exactly its four
bytes and every other byte stays; a read answers them, BUSY or not (R62, R68, 10_state.md R36). -/
def Obligations.DerBufferWordsAreBigEndian : Prop :=
  ∀ (s : State) (n : Nat) (a : Addr) (d : BusWord), n < 512 → a.toNat = 0x800 + 4 * n →
    (s.busy = false → ∃ t, hostStep (.write a d) s = .next t ∧
      t = { s with mem := t.mem, resp := some .writeDone } ∧
      (∀ b, b < 4 → t.derByte (4 * n + b) = d.extractLsb' (24 - 8 * b) 8) ∧
      ∀ x, x < 4 * n ∨ 4 * n + 4 ≤ x → t.derByte x = s.derByte x) ∧
    ∃ v, hostStep (.read a) s = .next { s with resp := some (.readData v) } ∧
      ∀ b, b < 4 → v.extractLsb' (24 - 8 * b) 8 = s.derByte (4 * n + b)

/-- ID reads as ID_VALUE and no step changes it; word j of the slots p, a, b, Gx, Gy, q and h reads as the constant's
bits, big-endian (10_state.md R31, R34, 20_memory.md R62). -/
def Obligations.IdAndConstantsReadBack : Prop :=
  ∀ s : State,
    hostStep (.read 0x000) s = .next { s with resp := some (.readData s.id) } ∧
    (∀ t, step s = .next t → t.id = s.id) ∧
    ∀ (k j v : Nat) (a : Addr), j < 8 → a.toNat = 0x200 + 32 * k + 4 * j →
      [0xFFFFFFFF00000001000000000000000000000000FFFFFFFFFFFFFFFFFFFFFFFF,
        0xFFFFFFFF00000001000000000000000000000000FFFFFFFFFFFFFFFFFFFFFFFC,
        0x5AC635D8AA3A93E7B3EBBD55769886BC651D06B0CC53B0F63BCE3C3E27D2604B,
        0x6B17D1F2E12C4247F8BCE6E563A440F277037D812DEB33A0F4A13945D898C296,
        0x4FE342E2FE1A7F9B8EE7EB4A7C0F9E162BCE33576B315ECECBB6406837BF51F5,
        0xFFFFFFFF00000000FFFFFFFFFFFFFFFFBCE6FAADA7179E84F3B9CAC2FC632551, 1][k]? = some v →
      hostStep (.read a) s = .next { s with resp := some (.readData (BitVec.ofNat 32 (v / 2 ^ (224 - 32 * j)))) }

/-- STATUS, ERRCODE, ERRPOS and the DER registers read as their fields, every bit not listed 0; ERRCODE by the codes of
60_exceptions.md R231 for its cause and of 42_der.md R191 for its detail; DER_PTR and DER_END take bits 11:0 of a write
while idle (10_state.md R26, R28, R30, R32, R33, R35). -/
def Obligations.ControlRegistersReadAsTheirFields : Prop :=
  ∀ s : State,
    (∃ v, hostStep (.read 0x008) s = .next { s with resp := some (.readData v) } ∧
      ∀ k, v.getLsbD k = [s.busy, s.done, s.err, s.z, s.rg, s.ovr].getD k false) ∧
    (∃ c d : Nat,
      (s.cause, c) ∈ [(Cause.none, 0), (.illegal, 1), (.encoding, 2), (.domain, 3), (.divZero, 4), (.noSqrt, 5),
        (.format, 6)] ∧
      (s.detail, d) ∈ [(Detail.none, 0), (.badSlice, 1), (.truncHdr, 2), (.indefLen, 3), (.truncLen, 4),
        (.nonminLen, 5), (.shortValue, 6), (.wrongTag, 7), (.nonminInt, 8), (.emptyInt, 9), (.badUnused, 10)] ∧
      hostStep (.read 0x010) s = .next { s with resp := some (.readData (BitVec.ofNat 32 (256 * d + c))) }) ∧
    (∀ x ∈ [(0x00C#12, s.cmd.toNat), (0x014#12, s.errpos.toNat), (0x020#12, s.derPtr.toNat),
        (0x024#12, s.derEnd.toNat), (0x028#12, s.derTag.toNat), (0x02C#12, s.derLen.toNat),
        (0x030#12, s.derVoff.toNat), (0x034#12, s.derNext.toNat), (0x038#12, s.derCnt.toNat)],
      hostStep (.read x.1) s = .next { s with resp := some (.readData (BitVec.ofNat 32 x.2)) } ∧ x.2 < 2 ^ 32) ∧
    ∀ d : BusWord, s.busy = false →
      hostStep (.write 0x020 d) s = .next { s with derPtr := d.extractLsb' 0 12, resp := some .writeDone } ∧
      hostStep (.write 0x024 d) s = .next { s with derEnd := d.extractLsb' 0 12, resp := some .writeDone }

/-- CTRL: it reads as IE in bit 0; a write with bit 1 = 0 sets IE to bit 0; a write with bit 1 = 1 is a soft reset, which
clears IE whatever bit 0 says; all of it whether or not BUSY is 1 (10_state.md R27). -/
def Obligations.CtrlReadsAndWrites : Prop :=
  ∀ (s : State) (d : BusWord),
    hostStep (.read 0x004) s = .next { s with resp := some (.readData (if s.ie then 1 else 0)) } ∧
    (d.getLsbD 1 = false → hostStep (.write 0x004 d) s = .next
      { s with ie := d.getLsbD 0, resp := some .writeDone }) ∧
    (d.getLsbD 1 = true → ∃ t, hostStep (.write 0x004 d) s = .next t ∧ t.ie = false ∧ t.busy = false ∧
      (∀ i, t.reg i = 0) ∧ hostStep (.write 0x004 (d ^^^ 1)) s = .next t)

/-- A write to STATUS clears DONE and OVR where it has a 1 and changes nothing else, whether or not BUSY is 1; ERR, ERRCODE
and ERRPOS keep their values (10_state.md R28, 60_exceptions.md R237). -/
def Obligations.StatusWriteOneClears : Prop :=
  ∀ (s : State) (d : BusWord), hostStep (.write 0x008 d) s = .next
    { s with
      done := if d.getLsbD 1 = true then false else s.done, ovr := if d.getLsbD 5 = true then false else s.ovr,
      resp := some .writeDone }

/-- The soft reset: everything but the DER buffer and ID takes its reset value, and a command in flight is aborted
(70_reset_and_hazards.md R272, 10_state.md R39). That the schedule stays is the model's choice (log entry 14), and the
answer to the write is the model's field (log entry 4). -/
def Obligations.SoftResetClearsAllButTheBuffer : Prop :=
  ∀ (s : State) (d : BusWord), d.getLsbD 1 = true → hostStep (.write 0x004 d) s = .next
    { regs := Vector.replicate 16 0, id := s.id, ie := false, busy := false, done := false, err := false, z := false,
      rg := false, ovr := false, cmd := 0, cause := .none, detail := .none, errpos := 0, derPtr := 0, derEnd := 0,
      derTag := 0, derLen := 0, derVoff := 0, derNext := 0, derCnt := 0, mem := s.mem, epoch := s.epoch,
      events := s.events, resp := some .writeDone }

/-- The hard reset: everything takes its reset value, no command is in flight, irq is low, ID stays, and every byte of the
DER buffer is a fresh draw, whatever it is (70_reset_and_hazards.md R270, R273, 10_state.md R39; the draws and the
epoch are the model's, log entry 5; that the schedule stays is its choice of log entry 14). -/
def Obligations.HardResetClearsAll : Prop :=
  ∀ s : State, ∃ t, step { s with events := .hardReset :: s.events } = .next t ∧
    (∀ i, t.reg i = 0) ∧ t.id = s.id ∧ t.ie = false ∧ t.busy = false ∧ t.done = false ∧ t.err = false ∧
    t.z = false ∧ t.rg = false ∧ t.ovr = false ∧ t.cmd = 0 ∧ t.cause = .none ∧ t.detail = .none ∧ t.errpos = 0 ∧
    t.derPtr = 0 ∧ t.derEnd = 0 ∧ t.derTag = 0 ∧ t.derLen = 0 ∧ t.derVoff = 0 ∧ t.derNext = 0 ∧ t.derCnt = 0 ∧
    t.irq = false ∧ t.events = s.events ∧ ∀ a, t.derByte a = Config.derDraw (s.epoch + 1) a

/-- The interrupt output is IE & DONE: it rises at a completion with IE = 1 and when IE is set while DONE = 1; it falls when
DONE or IE is cleared, a command is accepted, or a reset happens (60_exceptions.md R240). -/
def Obligations.InterruptFollowsDone : Prop :=
  ∀ (s t : State) (d : BusWord), s.irq = (s.ie && s.done) ∧
    (∀ i, exec i s = .next t → t.irq = s.ie) ∧
    (d.getLsbD 1 = false → hostStep (.write 0x004 d) s = .next t → t.irq = (d.getLsbD 0 && s.done)) ∧
    (d.getLsbD 1 = true → hostStep (.write 0x008 d) s = .next t → t.irq = false) ∧
    (s.busy = false → hostStep (.write 0x00C d) s = .next t → t.irq = false) ∧
    (d.getLsbD 1 = true → hostStep (.write 0x004 d) s = .next t → t.irq = false) ∧
    (step { s with events := .hardReset :: s.events } = .next t → t.irq = false)

/-! ### Rules of the whole machine -/

/-- OVR is sticky: only a write dropped because BUSY = 1 sets it, and only a 1 written to STATUS bit 5 or a reset clears it
(60_exceptions.md R241, 20_memory.md R68). -/
def Obligations.OvrIsSticky : Prop :=
  ∀ s t : State, step s = .next t →
    (t.ovr = true → s.ovr = true ∨ (s.busy = true ∧ ∃ a d, s.events.head? = some (.bus (.write a d)) ∧ Aligned a ∧
      IsGated a)) ∧
    (s.ovr = true → t.ovr = true ∨ s.events.head? = some .hardReset ∨
      ∃ d : BusWord, (d.getLsbD 5 = true ∧ s.events.head? = some (.bus (.write 0x008 d))) ∨
        (d.getLsbD 1 = true ∧ s.events.head? = some (.bus (.write 0x004 d))))

/-- A host that waits for completion never sets OVR: along any number of steps that obey the hazard rule, OVR = 0 stays 0
(70_reset_and_hazards.md R280, R281). -/
def Obligations.WaitingHostNeverSetsOvr : Prop :=
  ∀ (n : Nat) (s t : State), s.ovr = false → ObeysFor n s → Sys2Proof.core.run n s = .next t → t.ovr = false

/-- A command's operands cannot change while it runs: no access but a reset changes a register, the buffer, a DER pointer
or CMD while BUSY = 1, and the command stays in flight (20_memory.md R68, R70). -/
def Obligations.OperandsAreStableWhileBusy : Prop :=
  ∀ (s t : State) (a : BusAccess), s.busy = true → hostStep a s = .next t →
    (∀ d : BusWord, a = .write 0x004 d → d.getLsbD 1 = false) →
      (∀ i, t.reg i = s.reg i) ∧ (∀ x, t.derByte x = s.derByte x) ∧ t.derPtr = s.derPtr ∧ t.derEnd = s.derEnd ∧
        t.cmd = s.cmd ∧ t.busy = true

/-- No register value leaks while a command runs: if BUSY = 1, a host access answers the same and leaves the same state but
for the registers, whatever the registers hold (10_state.md R22, 20_memory.md R68). -/
def Obligations.RegistersAreHiddenWhileBusy : Prop :=
  ∀ (s s' : State) (a : BusAccess), s.busy = true → s' = { s with regs := s'.regs } →
    ∃ t t', hostStep a s = .next t ∧ hostStep a s' = .next t' ∧ t'.resp = t.resp ∧ t' = { t with regs := t'.regs }

/-- Every step keeps the invariant: the memory's canonical form, a report that matches BUSY and ERR, and DER results
inside the buffer. The invariant is the model's, drawn from 60_exceptions.md R231, R235, R236, 10_state.md R28, R30,
R35 and 42_der.md R194, R205, R210; its clause on the memory's form rests on log entry 5. -/
def Obligations.EveryStepKeepsTheInvariant : Prop := ∀ s t : State, Inv s → step s = .next t → Inv t

/-- The reset state has the invariant. -/
def Obligations.ResetHasTheInvariant : Prop := Inv State.reset
end

