-- ==== Sys2Proof/Laws/Arith.lean ====
section
/-! SUPPORT. What the modular operations compute. -/

namespace Sys2Proof.Machine

/-- The remainder as an integer. -/
theorem modInt_cast (z : Int) {m : Nat} (hm : 0 < m) : (modInt z m : Int) = z % (m : Int) := by
  unfold modInt
  exact Int.toNat_of_nonneg (Int.emod_nonneg _ (by omega))

/-- The remainder is reduced. -/
theorem modInt_lt (z : Int) {m : Nat} (hm : 0 < m) : modInt z m < m := by
  have h1 := modInt_cast z hm
  have h2 := Int.emod_lt_of_pos z (show (0 : Int) < m by omega)
  omega

/-- The remainder of a natural number. -/
theorem modInt_natCast (n m : Nat) : modInt (n : Int) m = n % m := by
  unfold modInt
  rw [← Int.natCast_mod, Int.toNat_natCast]

/-- The remainder in ZMod m is the integer itself. -/
theorem modInt_zmod (z : Int) {m : Nat} (hm : 0 < m) : ((modInt z m : Nat) : ZMod m) = (z : ZMod m) := by
  have h : (((modInt z m : Nat) : Int) : ZMod m) = ((z % (m : Int) : Int) : ZMod m) := by
    rw [modInt_cast z hm]
  rw [Int.cast_natCast] at h
  rw [h]
  simp

theorem powModBits_eq (x m n e : Nat) (he : e < 2 ^ n) : powModBits x m n e = x ^ e % m := by
  induction n generalizing e with
  | zero =>
    have : e = 0 := by omega
    subst this
    simp [powModBits]
  | succ n ih =>
    have hh : powModBits x m n (e / 2) = x ^ (e / 2) % m := ih (e / 2) (by rw [pow_succ] at he; omega)
    simp only [powModBits, hh]
    split_ifs with hodd
    · have e2 : e = e / 2 + e / 2 + 1 := by omega
      conv_rhs => rw [e2, pow_succ, pow_add]
      simp [Nat.mul_mod]
    · have e2 : e = e / 2 + e / 2 := by omega
      conv_rhs => rw [e2, pow_add]
      simp [Nat.mul_mod]

/-- powMod is the power mod m, for every exponent below 2^256. -/
theorem powMod_eq (x m : Nat) {e : Nat} (he : e < 2 ^ 256) : powMod x e m = x ^ e % m := by
  unfold powMod
  exact powModBits_eq x m 256 e he

/-- powMod is reduced. -/
theorem powMod_lt (x : Nat) {e m : Nat} (he : e < 2 ^ 256) (hm : 0 < m) : powMod x e m < m := by
  rw [powMod_eq x m he]; exact Nat.mod_lt _ hm

/-- powMod in ZMod m. -/
theorem powMod_zmod (x m : Nat) {e : Nat} (he : e < 2 ^ 256) : ((powMod x e m : Nat) : ZMod m) = (x : ZMod m) ^ e := by
  rw [powMod_eq x m he]; simp

/-- The modulus is positive and fits a register. -/
theorem modulusValue_pos (m : Modulus) : 0 < modulusValue m := by cases m <;> decide

theorem modulusValue_lt (m : Modulus) : modulusValue m < 2 ^ 256 := by cases m <;> decide

end Sys2Proof.Machine
end

