-- ==== Sys2Proof/Laws/Der.lean ====
section
/-! SUPPORT. What an element's parse gives, and that the element loop has enough iterations. -/

namespace Sys2Proof.Machine

/-- The big-endian value of n bytes has n bytes. -/
theorem beValue_lt (byte : Nat → Byte) (i n : Nat) : beValue byte i n < 256 ^ n := by
  induction n with
  | zero => simp [beValue]
  | succ n ih =>
    have := (byte (i + n)).isLt
    simp only [beValue, pow_succ]
    omega

/-- The value reads its own bytes only. -/
theorem beValue_congr {byte byte' : Nat → Byte} (i n : Nat) (h : ∀ j, i ≤ j → j < i + n → byte j = byte' j) :
    beValue byte i n = beValue byte' i n := by
  induction n with
  | zero => rfl
  | succ n ih =>
    simp only [beValue, h (i + n) (by omega) (by omega), ih fun j h1 h2 => h j h1 (by omega)]

/-- Everything the end of tlv can do. -/
theorem tlvValue_ok {tag : Byte} {len v e : Nat} {t : Tlv} (h : tlvValue tag len v e = .ok t) :
    t = ⟨tag, len, v, v + len⟩ ∧ v + len ≤ e := by
  unfold tlvValue at h
  split_ifs at h with hlt
  injection h with h
  exact ⟨h.symm, by omega⟩

/-- The shape of a parsed element (42_der.md R194): its header has at least two bytes, its value follows the header, and
it ends inside the slice. -/
theorem tlv_ok {byte : Nat → Byte} {s e : Nat} {t : Tlv} (h : tlv byte s e = .ok t) :
    t.tag = byte s ∧ s + 2 ≤ t.voff ∧ t.next = t.voff + t.len ∧ t.next ≤ e := by
  unfold tlv at h
  split_ifs at h with h2
  simp only at h
  split_ifs at h with hs hi
  · obtain ⟨rfl, hle⟩ := tlvValue_ok h
    exact ⟨rfl, le_refl _, rfl, hle⟩
  · unfold tlvLong at h
    split_ifs at h with h3 h4
    simp only at h
    split_ifs at h with h5
    obtain ⟨rfl, hle⟩ := tlvValue_ok h
    exact ⟨rfl, by simp, rfl, hle⟩

/-- The element loop's answer does not depend on the fuel, once there is one iteration for each byte left. -/
theorem countElements_fuel {byte : Nat → Byte} {stop : Nat} (f f' i c : Nat) (h : stop - i ≤ f) (h' : stop - i ≤ f') :
    countElements byte stop f i c = countElements byte stop f' i c := by
  induction f generalizing f' i c with
  | zero =>
    cases f' with
    | zero => rfl
    | succ f' => simp [countElements, show ¬ i < stop by omega]
  | succ f ih =>
    cases f' with
    | zero => simp [countElements, show ¬ i < stop by omega]
    | succ f' =>
      simp only [countElements]
      by_cases hi : i < stop
      · simp only [hi, if_true]
        cases ht : tlv byte i stop with
        | error e => rfl
        | ok t =>
          obtain ⟨_, hv, hn, _⟩ := tlv_ok ht
          exact ih f' t.next (c + 1) (by omega) (by omega)
      · simp [hi]

/-- Enough fuel for the whole content: the loop is the while loop of 42_der.md R210. -/
theorem countElements_while {byte : Nat → Byte} {stop f i c : Nat} (h : stop - i ≤ f) :
    countElements byte stop f i c =
      if i < stop then
        match tlv byte i stop with
        | .error e => .error e
        | .ok t => countElements byte stop f t.next (c + 1)
      else .ok c := by
  rw [countElements_fuel f (f + 1) i c h (by omega)]
  rfl

/-- Every element counted takes at least two bytes. -/
theorem countElements_bound {byte : Nat → Byte} {stop : Nat} (f i c n : Nat)
    (h : countElements byte stop f i c = .ok n) : c ≤ n ∧ 2 * (n - c) ≤ stop - i := by
  induction f generalizing i c with
  | zero => simp only [countElements] at h; injection h with h; omega
  | succ f ih =>
    simp only [countElements] at h
    split_ifs at h with hi
    · cases ht : tlv byte i stop with
      | error e => simp [ht] at h
      | ok t =>
        simp only [ht] at h
        obtain ⟨_, hv, hn, he⟩ := tlv_ok ht
        have := ih t.next (c + 1) h
        omega
    · injection h with h; omega

end Sys2Proof.Machine
end

