-- ==== Sys2Proof/Laws/Encoding.lean ====
section
/-! SUPPORT. Each field of a word built from its fields (30_encoding.md R90). -/

namespace Sys2Proof

theorem opcField_wordOf (opc : BitVec 8) (rd ra rb : RegIdx) (p m : Bool) : opcField (wordOf opc rd ra rb p m) = opc := by
  apply BitVec.eq_of_getLsbD_eq
  intro i hi
  interval_cases i <;> simp [opcField, wordOf]

theorem rdField_wordOf (opc : BitVec 8) (rd ra rb : RegIdx) (p m : Bool) : rdField (wordOf opc rd ra rb p m) = rd := by
  apply BitVec.eq_of_getLsbD_eq
  intro i hi
  interval_cases i <;> simp [rdField, wordOf]

theorem raField_wordOf (opc : BitVec 8) (rd ra rb : RegIdx) (p m : Bool) : raField (wordOf opc rd ra rb p m) = ra := by
  apply BitVec.eq_of_getLsbD_eq
  intro i hi
  interval_cases i <;> simp [raField, wordOf]

theorem rbField_wordOf (opc : BitVec 8) (rd ra rb : RegIdx) (p m : Bool) : rbField (wordOf opc rd ra rb p m) = rb := by
  apply BitVec.eq_of_getLsbD_eq
  intro i hi
  interval_cases i <;> simp [rbField, wordOf]

theorem rsvField_wordOf (opc : BitVec 8) (rd ra rb : RegIdx) (p m : Bool) : rsvField (wordOf opc rd ra rb p m) = 0 := by
  apply BitVec.eq_of_getLsbD_eq
  intro i hi
  interval_cases i <;> simp [rsvField, wordOf]

theorem parityField_wordOf (opc : BitVec 8) (rd ra rb : RegIdx) (p m : Bool) :
    parityField (wordOf opc rd ra rb p m) = p := by
  simp [parityField, wordOf]

theorem modulusBit_wordOf (opc : BitVec 8) (rd ra rb : RegIdx) (p m : Bool) :
    modulusBit (wordOf opc rd ra rb p m) = m := by
  simp [modulusBit, wordOf]

/-- A word is its fields: no bit of it lies outside them. -/
theorem word_ext {w w' : BusWord} (h1 : opcField w = opcField w') (h2 : rdField w = rdField w')
    (h3 : raField w = raField w') (h4 : rbField w = rbField w') (h5 : rsvField w = rsvField w')
    (h6 : parityField w = parityField w') (h7 : modulusBit w = modulusBit w') : w = w' := by
  apply BitVec.eq_of_getLsbD_eq
  intro i hi
  have e1 : ∀ j, j < 8 → w.getLsbD (24 + j) = w'.getLsbD (24 + j) := fun j hj => by
    simpa [opcField, BitVec.getLsbD_extractLsb', hj] using congrArg (fun v => v.getLsbD j) h1
  have e2 : ∀ j, j < 4 → w.getLsbD (20 + j) = w'.getLsbD (20 + j) := fun j hj => by
    simpa [rdField, BitVec.getLsbD_extractLsb', hj] using congrArg (fun v => v.getLsbD j) h2
  have e3 : ∀ j, j < 4 → w.getLsbD (16 + j) = w'.getLsbD (16 + j) := fun j hj => by
    simpa [raField, BitVec.getLsbD_extractLsb', hj] using congrArg (fun v => v.getLsbD j) h3
  have e4 : ∀ j, j < 4 → w.getLsbD (12 + j) = w'.getLsbD (12 + j) := fun j hj => by
    simpa [rbField, BitVec.getLsbD_extractLsb', hj] using congrArg (fun v => v.getLsbD j) h4
  have e5 : ∀ j, j < 10 → w.getLsbD (2 + j) = w'.getLsbD (2 + j) := fun j hj => by
    simpa [rsvField, BitVec.getLsbD_extractLsb', hj] using congrArg (fun v => v.getLsbD j) h5
  by_cases c1 : 24 ≤ i
  · simpa [show 24 + (i - 24) = i by omega] using e1 (i - 24) (by omega)
  by_cases c2 : 20 ≤ i
  · simpa [show 20 + (i - 20) = i by omega] using e2 (i - 20) (by omega)
  by_cases c3 : 16 ≤ i
  · simpa [show 16 + (i - 16) = i by omega] using e3 (i - 16) (by omega)
  by_cases c4 : 12 ≤ i
  · simpa [show 12 + (i - 12) = i by omega] using e4 (i - 12) (by omega)
  by_cases c5 : 2 ≤ i
  · simpa [show 2 + (i - 2) = i by omega] using e5 (i - 2) (by omega)
  rcases (by omega : i = 0 ∨ i = 1) with rfl | rfl
  · exact h7
  · exact h6

end Sys2Proof
end

