-- ==== Sys2Proof/Laws/State.lean ====
section
/-! SUPPORT. What each field is after each update of the state, so that no proof unfolds a record update. -/

namespace Sys2Proof.Machine

/-! ### State.setReg -/

@[simp] theorem State.setReg_regs (s : State) (i : RegIdx) (v : RegWord) : (s.setReg i v).regs = s.regs.set i.toNat v i.isLt := rfl
@[simp] theorem State.setReg_id (s : State) (i : RegIdx) (v : RegWord) : (s.setReg i v).id = s.id := rfl
@[simp] theorem State.setReg_ie (s : State) (i : RegIdx) (v : RegWord) : (s.setReg i v).ie = s.ie := rfl
@[simp] theorem State.setReg_busy (s : State) (i : RegIdx) (v : RegWord) : (s.setReg i v).busy = s.busy := rfl
@[simp] theorem State.setReg_done (s : State) (i : RegIdx) (v : RegWord) : (s.setReg i v).done = s.done := rfl
@[simp] theorem State.setReg_err (s : State) (i : RegIdx) (v : RegWord) : (s.setReg i v).err = s.err := rfl
@[simp] theorem State.setReg_z (s : State) (i : RegIdx) (v : RegWord) : (s.setReg i v).z = s.z := rfl
@[simp] theorem State.setReg_rg (s : State) (i : RegIdx) (v : RegWord) : (s.setReg i v).rg = s.rg := rfl
@[simp] theorem State.setReg_ovr (s : State) (i : RegIdx) (v : RegWord) : (s.setReg i v).ovr = s.ovr := rfl
@[simp] theorem State.setReg_cmd (s : State) (i : RegIdx) (v : RegWord) : (s.setReg i v).cmd = s.cmd := rfl
@[simp] theorem State.setReg_cause (s : State) (i : RegIdx) (v : RegWord) : (s.setReg i v).cause = s.cause := rfl
@[simp] theorem State.setReg_detail (s : State) (i : RegIdx) (v : RegWord) : (s.setReg i v).detail = s.detail := rfl
@[simp] theorem State.setReg_errpos (s : State) (i : RegIdx) (v : RegWord) : (s.setReg i v).errpos = s.errpos := rfl
@[simp] theorem State.setReg_derPtr (s : State) (i : RegIdx) (v : RegWord) : (s.setReg i v).derPtr = s.derPtr := rfl
@[simp] theorem State.setReg_derEnd (s : State) (i : RegIdx) (v : RegWord) : (s.setReg i v).derEnd = s.derEnd := rfl
@[simp] theorem State.setReg_derTag (s : State) (i : RegIdx) (v : RegWord) : (s.setReg i v).derTag = s.derTag := rfl
@[simp] theorem State.setReg_derLen (s : State) (i : RegIdx) (v : RegWord) : (s.setReg i v).derLen = s.derLen := rfl
@[simp] theorem State.setReg_derVoff (s : State) (i : RegIdx) (v : RegWord) : (s.setReg i v).derVoff = s.derVoff := rfl
@[simp] theorem State.setReg_derNext (s : State) (i : RegIdx) (v : RegWord) : (s.setReg i v).derNext = s.derNext := rfl
@[simp] theorem State.setReg_derCnt (s : State) (i : RegIdx) (v : RegWord) : (s.setReg i v).derCnt = s.derCnt := rfl
@[simp] theorem State.setReg_mem (s : State) (i : RegIdx) (v : RegWord) : (s.setReg i v).mem = s.mem := rfl
@[simp] theorem State.setReg_epoch (s : State) (i : RegIdx) (v : RegWord) : (s.setReg i v).epoch = s.epoch := rfl
@[simp] theorem State.setReg_events (s : State) (i : RegIdx) (v : RegWord) : (s.setReg i v).events = s.events := rfl
@[simp] theorem State.setReg_resp (s : State) (i : RegIdx) (v : RegWord) : (s.setReg i v).resp = s.resp := rfl

/-! ### State.raise -/

@[simp] theorem State.raise_regs (s : State) (c : Cause) (d : Detail) (pos : Offset) : (s.raise c d pos).regs = s.regs := rfl
@[simp] theorem State.raise_id (s : State) (c : Cause) (d : Detail) (pos : Offset) : (s.raise c d pos).id = s.id := rfl
@[simp] theorem State.raise_ie (s : State) (c : Cause) (d : Detail) (pos : Offset) : (s.raise c d pos).ie = s.ie := rfl
@[simp] theorem State.raise_busy (s : State) (c : Cause) (d : Detail) (pos : Offset) : (s.raise c d pos).busy = false := rfl
@[simp] theorem State.raise_done (s : State) (c : Cause) (d : Detail) (pos : Offset) : (s.raise c d pos).done = true := rfl
@[simp] theorem State.raise_err (s : State) (c : Cause) (d : Detail) (pos : Offset) : (s.raise c d pos).err = true := rfl
@[simp] theorem State.raise_z (s : State) (c : Cause) (d : Detail) (pos : Offset) : (s.raise c d pos).z = false := rfl
@[simp] theorem State.raise_rg (s : State) (c : Cause) (d : Detail) (pos : Offset) : (s.raise c d pos).rg = false := rfl
@[simp] theorem State.raise_ovr (s : State) (c : Cause) (d : Detail) (pos : Offset) : (s.raise c d pos).ovr = s.ovr := rfl
@[simp] theorem State.raise_cmd (s : State) (c : Cause) (d : Detail) (pos : Offset) : (s.raise c d pos).cmd = s.cmd := rfl
@[simp] theorem State.raise_cause (s : State) (c : Cause) (d : Detail) (pos : Offset) : (s.raise c d pos).cause = c := rfl
@[simp] theorem State.raise_detail (s : State) (c : Cause) (d : Detail) (pos : Offset) : (s.raise c d pos).detail = d := rfl
@[simp] theorem State.raise_errpos (s : State) (c : Cause) (d : Detail) (pos : Offset) : (s.raise c d pos).errpos = pos := rfl
@[simp] theorem State.raise_derPtr (s : State) (c : Cause) (d : Detail) (pos : Offset) : (s.raise c d pos).derPtr = s.derPtr := rfl
@[simp] theorem State.raise_derEnd (s : State) (c : Cause) (d : Detail) (pos : Offset) : (s.raise c d pos).derEnd = s.derEnd := rfl
@[simp] theorem State.raise_derTag (s : State) (c : Cause) (d : Detail) (pos : Offset) : (s.raise c d pos).derTag = s.derTag := rfl
@[simp] theorem State.raise_derLen (s : State) (c : Cause) (d : Detail) (pos : Offset) : (s.raise c d pos).derLen = s.derLen := rfl
@[simp] theorem State.raise_derVoff (s : State) (c : Cause) (d : Detail) (pos : Offset) : (s.raise c d pos).derVoff = s.derVoff := rfl
@[simp] theorem State.raise_derNext (s : State) (c : Cause) (d : Detail) (pos : Offset) : (s.raise c d pos).derNext = s.derNext := rfl
@[simp] theorem State.raise_derCnt (s : State) (c : Cause) (d : Detail) (pos : Offset) : (s.raise c d pos).derCnt = s.derCnt := rfl
@[simp] theorem State.raise_mem (s : State) (c : Cause) (d : Detail) (pos : Offset) : (s.raise c d pos).mem = s.mem := rfl
@[simp] theorem State.raise_epoch (s : State) (c : Cause) (d : Detail) (pos : Offset) : (s.raise c d pos).epoch = s.epoch := rfl
@[simp] theorem State.raise_events (s : State) (c : Cause) (d : Detail) (pos : Offset) : (s.raise c d pos).events = s.events := rfl
@[simp] theorem State.raise_resp (s : State) (c : Cause) (d : Detail) (pos : Offset) : (s.raise c d pos).resp = s.resp := rfl

/-! ### State.complete -/

@[simp] theorem State.complete_regs (s : State) (z rg : Bool) : (s.complete z rg).regs = s.regs := rfl
@[simp] theorem State.complete_id (s : State) (z rg : Bool) : (s.complete z rg).id = s.id := rfl
@[simp] theorem State.complete_ie (s : State) (z rg : Bool) : (s.complete z rg).ie = s.ie := rfl
@[simp] theorem State.complete_busy (s : State) (z rg : Bool) : (s.complete z rg).busy = false := rfl
@[simp] theorem State.complete_done (s : State) (z rg : Bool) : (s.complete z rg).done = true := rfl
@[simp] theorem State.complete_err (s : State) (z rg : Bool) : (s.complete z rg).err = false := rfl
@[simp] theorem State.complete_z (s : State) (z rg : Bool) : (s.complete z rg).z = z := rfl
@[simp] theorem State.complete_rg (s : State) (z rg : Bool) : (s.complete z rg).rg = rg := rfl
@[simp] theorem State.complete_ovr (s : State) (z rg : Bool) : (s.complete z rg).ovr = s.ovr := rfl
@[simp] theorem State.complete_cmd (s : State) (z rg : Bool) : (s.complete z rg).cmd = s.cmd := rfl
@[simp] theorem State.complete_cause (s : State) (z rg : Bool) : (s.complete z rg).cause = s.cause := rfl
@[simp] theorem State.complete_detail (s : State) (z rg : Bool) : (s.complete z rg).detail = s.detail := rfl
@[simp] theorem State.complete_errpos (s : State) (z rg : Bool) : (s.complete z rg).errpos = s.errpos := rfl
@[simp] theorem State.complete_derPtr (s : State) (z rg : Bool) : (s.complete z rg).derPtr = s.derPtr := rfl
@[simp] theorem State.complete_derEnd (s : State) (z rg : Bool) : (s.complete z rg).derEnd = s.derEnd := rfl
@[simp] theorem State.complete_derTag (s : State) (z rg : Bool) : (s.complete z rg).derTag = s.derTag := rfl
@[simp] theorem State.complete_derLen (s : State) (z rg : Bool) : (s.complete z rg).derLen = s.derLen := rfl
@[simp] theorem State.complete_derVoff (s : State) (z rg : Bool) : (s.complete z rg).derVoff = s.derVoff := rfl
@[simp] theorem State.complete_derNext (s : State) (z rg : Bool) : (s.complete z rg).derNext = s.derNext := rfl
@[simp] theorem State.complete_derCnt (s : State) (z rg : Bool) : (s.complete z rg).derCnt = s.derCnt := rfl
@[simp] theorem State.complete_mem (s : State) (z rg : Bool) : (s.complete z rg).mem = s.mem := rfl
@[simp] theorem State.complete_epoch (s : State) (z rg : Bool) : (s.complete z rg).epoch = s.epoch := rfl
@[simp] theorem State.complete_events (s : State) (z rg : Bool) : (s.complete z rg).events = s.events := rfl
@[simp] theorem State.complete_resp (s : State) (z rg : Bool) : (s.complete z rg).resp = s.resp := rfl

/-! ### State.accept -/

@[simp] theorem State.accept_regs (s : State) (w : BusWord) : (s.accept w).regs = s.regs := rfl
@[simp] theorem State.accept_id (s : State) (w : BusWord) : (s.accept w).id = s.id := rfl
@[simp] theorem State.accept_ie (s : State) (w : BusWord) : (s.accept w).ie = s.ie := rfl
@[simp] theorem State.accept_busy (s : State) (w : BusWord) : (s.accept w).busy = true := rfl
@[simp] theorem State.accept_done (s : State) (w : BusWord) : (s.accept w).done = false := rfl
@[simp] theorem State.accept_err (s : State) (w : BusWord) : (s.accept w).err = false := rfl
@[simp] theorem State.accept_z (s : State) (w : BusWord) : (s.accept w).z = false := rfl
@[simp] theorem State.accept_rg (s : State) (w : BusWord) : (s.accept w).rg = false := rfl
@[simp] theorem State.accept_ovr (s : State) (w : BusWord) : (s.accept w).ovr = s.ovr := rfl
@[simp] theorem State.accept_cmd (s : State) (w : BusWord) : (s.accept w).cmd = w := rfl
@[simp] theorem State.accept_cause (s : State) (w : BusWord) : (s.accept w).cause = Cause.none := rfl
@[simp] theorem State.accept_detail (s : State) (w : BusWord) : (s.accept w).detail = Detail.none := rfl
@[simp] theorem State.accept_errpos (s : State) (w : BusWord) : (s.accept w).errpos = 0 := rfl
@[simp] theorem State.accept_derPtr (s : State) (w : BusWord) : (s.accept w).derPtr = s.derPtr := rfl
@[simp] theorem State.accept_derEnd (s : State) (w : BusWord) : (s.accept w).derEnd = s.derEnd := rfl
@[simp] theorem State.accept_derTag (s : State) (w : BusWord) : (s.accept w).derTag = s.derTag := rfl
@[simp] theorem State.accept_derLen (s : State) (w : BusWord) : (s.accept w).derLen = s.derLen := rfl
@[simp] theorem State.accept_derVoff (s : State) (w : BusWord) : (s.accept w).derVoff = s.derVoff := rfl
@[simp] theorem State.accept_derNext (s : State) (w : BusWord) : (s.accept w).derNext = s.derNext := rfl
@[simp] theorem State.accept_derCnt (s : State) (w : BusWord) : (s.accept w).derCnt = s.derCnt := rfl
@[simp] theorem State.accept_mem (s : State) (w : BusWord) : (s.accept w).mem = s.mem := rfl
@[simp] theorem State.accept_epoch (s : State) (w : BusWord) : (s.accept w).epoch = s.epoch := rfl
@[simp] theorem State.accept_events (s : State) (w : BusWord) : (s.accept w).events = s.events := rfl
@[simp] theorem State.accept_resp (s : State) (w : BusWord) : (s.accept w).resp = s.resp := rfl

/-! ### State.dropWrite -/

@[simp] theorem State.dropWrite_regs (s : State) : (s.dropWrite).regs = s.regs := rfl
@[simp] theorem State.dropWrite_id (s : State) : (s.dropWrite).id = s.id := rfl
@[simp] theorem State.dropWrite_ie (s : State) : (s.dropWrite).ie = s.ie := rfl
@[simp] theorem State.dropWrite_busy (s : State) : (s.dropWrite).busy = s.busy := rfl
@[simp] theorem State.dropWrite_done (s : State) : (s.dropWrite).done = s.done := rfl
@[simp] theorem State.dropWrite_err (s : State) : (s.dropWrite).err = s.err := rfl
@[simp] theorem State.dropWrite_z (s : State) : (s.dropWrite).z = s.z := rfl
@[simp] theorem State.dropWrite_rg (s : State) : (s.dropWrite).rg = s.rg := rfl
@[simp] theorem State.dropWrite_ovr (s : State) : (s.dropWrite).ovr = true := rfl
@[simp] theorem State.dropWrite_cmd (s : State) : (s.dropWrite).cmd = s.cmd := rfl
@[simp] theorem State.dropWrite_cause (s : State) : (s.dropWrite).cause = s.cause := rfl
@[simp] theorem State.dropWrite_detail (s : State) : (s.dropWrite).detail = s.detail := rfl
@[simp] theorem State.dropWrite_errpos (s : State) : (s.dropWrite).errpos = s.errpos := rfl
@[simp] theorem State.dropWrite_derPtr (s : State) : (s.dropWrite).derPtr = s.derPtr := rfl
@[simp] theorem State.dropWrite_derEnd (s : State) : (s.dropWrite).derEnd = s.derEnd := rfl
@[simp] theorem State.dropWrite_derTag (s : State) : (s.dropWrite).derTag = s.derTag := rfl
@[simp] theorem State.dropWrite_derLen (s : State) : (s.dropWrite).derLen = s.derLen := rfl
@[simp] theorem State.dropWrite_derVoff (s : State) : (s.dropWrite).derVoff = s.derVoff := rfl
@[simp] theorem State.dropWrite_derNext (s : State) : (s.dropWrite).derNext = s.derNext := rfl
@[simp] theorem State.dropWrite_derCnt (s : State) : (s.dropWrite).derCnt = s.derCnt := rfl
@[simp] theorem State.dropWrite_mem (s : State) : (s.dropWrite).mem = s.mem := rfl
@[simp] theorem State.dropWrite_epoch (s : State) : (s.dropWrite).epoch = s.epoch := rfl
@[simp] theorem State.dropWrite_events (s : State) : (s.dropWrite).events = s.events := rfl
@[simp] theorem State.dropWrite_resp (s : State) : (s.dropWrite).resp = s.resp := rfl

/-! ### State.softReset -/

@[simp] theorem State.softReset_regs (s : State) : (s.softReset).regs = Vector.replicate 16 0 := rfl
@[simp] theorem State.softReset_id (s : State) : (s.softReset).id = s.id := rfl
@[simp] theorem State.softReset_ie (s : State) : (s.softReset).ie = false := rfl
@[simp] theorem State.softReset_busy (s : State) : (s.softReset).busy = false := rfl
@[simp] theorem State.softReset_done (s : State) : (s.softReset).done = false := rfl
@[simp] theorem State.softReset_err (s : State) : (s.softReset).err = false := rfl
@[simp] theorem State.softReset_z (s : State) : (s.softReset).z = false := rfl
@[simp] theorem State.softReset_rg (s : State) : (s.softReset).rg = false := rfl
@[simp] theorem State.softReset_ovr (s : State) : (s.softReset).ovr = false := rfl
@[simp] theorem State.softReset_cmd (s : State) : (s.softReset).cmd = 0 := rfl
@[simp] theorem State.softReset_cause (s : State) : (s.softReset).cause = Cause.none := rfl
@[simp] theorem State.softReset_detail (s : State) : (s.softReset).detail = Detail.none := rfl
@[simp] theorem State.softReset_errpos (s : State) : (s.softReset).errpos = 0 := rfl
@[simp] theorem State.softReset_derPtr (s : State) : (s.softReset).derPtr = 0 := rfl
@[simp] theorem State.softReset_derEnd (s : State) : (s.softReset).derEnd = 0 := rfl
@[simp] theorem State.softReset_derTag (s : State) : (s.softReset).derTag = 0 := rfl
@[simp] theorem State.softReset_derLen (s : State) : (s.softReset).derLen = 0 := rfl
@[simp] theorem State.softReset_derVoff (s : State) : (s.softReset).derVoff = 0 := rfl
@[simp] theorem State.softReset_derNext (s : State) : (s.softReset).derNext = 0 := rfl
@[simp] theorem State.softReset_derCnt (s : State) : (s.softReset).derCnt = 0 := rfl
@[simp] theorem State.softReset_mem (s : State) : (s.softReset).mem = s.mem := rfl
@[simp] theorem State.softReset_epoch (s : State) : (s.softReset).epoch = s.epoch := rfl
@[simp] theorem State.softReset_events (s : State) : (s.softReset).events = s.events := rfl
@[simp] theorem State.softReset_resp (s : State) : (s.softReset).resp = s.resp := rfl

/-! ### State.hardReset -/

@[simp] theorem State.hardReset_regs (s : State) : (s.hardReset).regs = Vector.replicate 16 0 := rfl
@[simp] theorem State.hardReset_id (s : State) : (s.hardReset).id = s.id := rfl
@[simp] theorem State.hardReset_ie (s : State) : (s.hardReset).ie = false := rfl
@[simp] theorem State.hardReset_busy (s : State) : (s.hardReset).busy = false := rfl
@[simp] theorem State.hardReset_done (s : State) : (s.hardReset).done = false := rfl
@[simp] theorem State.hardReset_err (s : State) : (s.hardReset).err = false := rfl
@[simp] theorem State.hardReset_z (s : State) : (s.hardReset).z = false := rfl
@[simp] theorem State.hardReset_rg (s : State) : (s.hardReset).rg = false := rfl
@[simp] theorem State.hardReset_ovr (s : State) : (s.hardReset).ovr = false := rfl
@[simp] theorem State.hardReset_cmd (s : State) : (s.hardReset).cmd = 0 := rfl
@[simp] theorem State.hardReset_cause (s : State) : (s.hardReset).cause = Cause.none := rfl
@[simp] theorem State.hardReset_detail (s : State) : (s.hardReset).detail = Detail.none := rfl
@[simp] theorem State.hardReset_errpos (s : State) : (s.hardReset).errpos = 0 := rfl
@[simp] theorem State.hardReset_derPtr (s : State) : (s.hardReset).derPtr = 0 := rfl
@[simp] theorem State.hardReset_derEnd (s : State) : (s.hardReset).derEnd = 0 := rfl
@[simp] theorem State.hardReset_derTag (s : State) : (s.hardReset).derTag = 0 := rfl
@[simp] theorem State.hardReset_derLen (s : State) : (s.hardReset).derLen = 0 := rfl
@[simp] theorem State.hardReset_derVoff (s : State) : (s.hardReset).derVoff = 0 := rfl
@[simp] theorem State.hardReset_derNext (s : State) : (s.hardReset).derNext = 0 := rfl
@[simp] theorem State.hardReset_derCnt (s : State) : (s.hardReset).derCnt = 0 := rfl
@[simp] theorem State.hardReset_mem (s : State) : (s.hardReset).mem = [] := rfl
@[simp] theorem State.hardReset_epoch (s : State) : (s.hardReset).epoch = s.epoch + 1 := rfl
@[simp] theorem State.hardReset_events (s : State) : (s.hardReset).events = s.events := rfl
@[simp] theorem State.hardReset_resp (s : State) : (s.hardReset).resp = none := rfl

/-! ### State.setDer -/

@[simp] theorem State.setDer_regs (s : State) (tag : Byte) (len voff next : Nat) : (s.setDer tag len voff next).regs = s.regs := rfl
@[simp] theorem State.setDer_id (s : State) (tag : Byte) (len voff next : Nat) : (s.setDer tag len voff next).id = s.id := rfl
@[simp] theorem State.setDer_ie (s : State) (tag : Byte) (len voff next : Nat) : (s.setDer tag len voff next).ie = s.ie := rfl
@[simp] theorem State.setDer_busy (s : State) (tag : Byte) (len voff next : Nat) : (s.setDer tag len voff next).busy = s.busy := rfl
@[simp] theorem State.setDer_done (s : State) (tag : Byte) (len voff next : Nat) : (s.setDer tag len voff next).done = s.done := rfl
@[simp] theorem State.setDer_err (s : State) (tag : Byte) (len voff next : Nat) : (s.setDer tag len voff next).err = s.err := rfl
@[simp] theorem State.setDer_z (s : State) (tag : Byte) (len voff next : Nat) : (s.setDer tag len voff next).z = s.z := rfl
@[simp] theorem State.setDer_rg (s : State) (tag : Byte) (len voff next : Nat) : (s.setDer tag len voff next).rg = s.rg := rfl
@[simp] theorem State.setDer_ovr (s : State) (tag : Byte) (len voff next : Nat) : (s.setDer tag len voff next).ovr = s.ovr := rfl
@[simp] theorem State.setDer_cmd (s : State) (tag : Byte) (len voff next : Nat) : (s.setDer tag len voff next).cmd = s.cmd := rfl
@[simp] theorem State.setDer_cause (s : State) (tag : Byte) (len voff next : Nat) : (s.setDer tag len voff next).cause = s.cause := rfl
@[simp] theorem State.setDer_detail (s : State) (tag : Byte) (len voff next : Nat) : (s.setDer tag len voff next).detail = s.detail := rfl
@[simp] theorem State.setDer_errpos (s : State) (tag : Byte) (len voff next : Nat) : (s.setDer tag len voff next).errpos = s.errpos := rfl
@[simp] theorem State.setDer_derPtr (s : State) (tag : Byte) (len voff next : Nat) : (s.setDer tag len voff next).derPtr = s.derPtr := rfl
@[simp] theorem State.setDer_derEnd (s : State) (tag : Byte) (len voff next : Nat) : (s.setDer tag len voff next).derEnd = s.derEnd := rfl
@[simp] theorem State.setDer_derTag (s : State) (tag : Byte) (len voff next : Nat) : (s.setDer tag len voff next).derTag = tag := rfl
@[simp] theorem State.setDer_derLen (s : State) (tag : Byte) (len voff next : Nat) : (s.setDer tag len voff next).derLen = BitVec.ofNat 12 len := rfl
@[simp] theorem State.setDer_derVoff (s : State) (tag : Byte) (len voff next : Nat) : (s.setDer tag len voff next).derVoff = BitVec.ofNat 12 voff := rfl
@[simp] theorem State.setDer_derNext (s : State) (tag : Byte) (len voff next : Nat) : (s.setDer tag len voff next).derNext = BitVec.ofNat 12 next := rfl
@[simp] theorem State.setDer_derCnt (s : State) (tag : Byte) (len voff next : Nat) : (s.setDer tag len voff next).derCnt = s.derCnt := rfl
@[simp] theorem State.setDer_mem (s : State) (tag : Byte) (len voff next : Nat) : (s.setDer tag len voff next).mem = s.mem := rfl
@[simp] theorem State.setDer_epoch (s : State) (tag : Byte) (len voff next : Nat) : (s.setDer tag len voff next).epoch = s.epoch := rfl
@[simp] theorem State.setDer_events (s : State) (tag : Byte) (len voff next : Nat) : (s.setDer tag len voff next).events = s.events := rfl
@[simp] theorem State.setDer_resp (s : State) (tag : Byte) (len voff next : Nat) : (s.setDer tag len voff next).resp = s.resp := rfl

/-! ### State.setCnt -/

@[simp] theorem State.setCnt_regs (s : State) (n : Nat) : (s.setCnt n).regs = s.regs := rfl
@[simp] theorem State.setCnt_id (s : State) (n : Nat) : (s.setCnt n).id = s.id := rfl
@[simp] theorem State.setCnt_ie (s : State) (n : Nat) : (s.setCnt n).ie = s.ie := rfl
@[simp] theorem State.setCnt_busy (s : State) (n : Nat) : (s.setCnt n).busy = s.busy := rfl
@[simp] theorem State.setCnt_done (s : State) (n : Nat) : (s.setCnt n).done = s.done := rfl
@[simp] theorem State.setCnt_err (s : State) (n : Nat) : (s.setCnt n).err = s.err := rfl
@[simp] theorem State.setCnt_z (s : State) (n : Nat) : (s.setCnt n).z = s.z := rfl
@[simp] theorem State.setCnt_rg (s : State) (n : Nat) : (s.setCnt n).rg = s.rg := rfl
@[simp] theorem State.setCnt_ovr (s : State) (n : Nat) : (s.setCnt n).ovr = s.ovr := rfl
@[simp] theorem State.setCnt_cmd (s : State) (n : Nat) : (s.setCnt n).cmd = s.cmd := rfl
@[simp] theorem State.setCnt_cause (s : State) (n : Nat) : (s.setCnt n).cause = s.cause := rfl
@[simp] theorem State.setCnt_detail (s : State) (n : Nat) : (s.setCnt n).detail = s.detail := rfl
@[simp] theorem State.setCnt_errpos (s : State) (n : Nat) : (s.setCnt n).errpos = s.errpos := rfl
@[simp] theorem State.setCnt_derPtr (s : State) (n : Nat) : (s.setCnt n).derPtr = s.derPtr := rfl
@[simp] theorem State.setCnt_derEnd (s : State) (n : Nat) : (s.setCnt n).derEnd = s.derEnd := rfl
@[simp] theorem State.setCnt_derTag (s : State) (n : Nat) : (s.setCnt n).derTag = s.derTag := rfl
@[simp] theorem State.setCnt_derLen (s : State) (n : Nat) : (s.setCnt n).derLen = s.derLen := rfl
@[simp] theorem State.setCnt_derVoff (s : State) (n : Nat) : (s.setCnt n).derVoff = s.derVoff := rfl
@[simp] theorem State.setCnt_derNext (s : State) (n : Nat) : (s.setCnt n).derNext = s.derNext := rfl
@[simp] theorem State.setCnt_derCnt (s : State) (n : Nat) : (s.setCnt n).derCnt = BitVec.ofNat 12 n := rfl
@[simp] theorem State.setCnt_mem (s : State) (n : Nat) : (s.setCnt n).mem = s.mem := rfl
@[simp] theorem State.setCnt_epoch (s : State) (n : Nat) : (s.setCnt n).epoch = s.epoch := rfl
@[simp] theorem State.setCnt_events (s : State) (n : Nat) : (s.setCnt n).events = s.events := rfl
@[simp] theorem State.setCnt_resp (s : State) (n : Nat) : (s.setCnt n).resp = s.resp := rfl

/-! ### State.writeStatus -/

@[simp] theorem State.writeStatus_regs (s : State) (d : BusWord) : (s.writeStatus d).regs = s.regs := rfl
@[simp] theorem State.writeStatus_id (s : State) (d : BusWord) : (s.writeStatus d).id = s.id := rfl
@[simp] theorem State.writeStatus_ie (s : State) (d : BusWord) : (s.writeStatus d).ie = s.ie := rfl
@[simp] theorem State.writeStatus_busy (s : State) (d : BusWord) : (s.writeStatus d).busy = s.busy := rfl
@[simp] theorem State.writeStatus_done (s : State) (d : BusWord) : (s.writeStatus d).done = (s.done && !d.getLsbD 1) := rfl
@[simp] theorem State.writeStatus_err (s : State) (d : BusWord) : (s.writeStatus d).err = s.err := rfl
@[simp] theorem State.writeStatus_z (s : State) (d : BusWord) : (s.writeStatus d).z = s.z := rfl
@[simp] theorem State.writeStatus_rg (s : State) (d : BusWord) : (s.writeStatus d).rg = s.rg := rfl
@[simp] theorem State.writeStatus_ovr (s : State) (d : BusWord) : (s.writeStatus d).ovr = (s.ovr && !d.getLsbD 5) := rfl
@[simp] theorem State.writeStatus_cmd (s : State) (d : BusWord) : (s.writeStatus d).cmd = s.cmd := rfl
@[simp] theorem State.writeStatus_cause (s : State) (d : BusWord) : (s.writeStatus d).cause = s.cause := rfl
@[simp] theorem State.writeStatus_detail (s : State) (d : BusWord) : (s.writeStatus d).detail = s.detail := rfl
@[simp] theorem State.writeStatus_errpos (s : State) (d : BusWord) : (s.writeStatus d).errpos = s.errpos := rfl
@[simp] theorem State.writeStatus_derPtr (s : State) (d : BusWord) : (s.writeStatus d).derPtr = s.derPtr := rfl
@[simp] theorem State.writeStatus_derEnd (s : State) (d : BusWord) : (s.writeStatus d).derEnd = s.derEnd := rfl
@[simp] theorem State.writeStatus_derTag (s : State) (d : BusWord) : (s.writeStatus d).derTag = s.derTag := rfl
@[simp] theorem State.writeStatus_derLen (s : State) (d : BusWord) : (s.writeStatus d).derLen = s.derLen := rfl
@[simp] theorem State.writeStatus_derVoff (s : State) (d : BusWord) : (s.writeStatus d).derVoff = s.derVoff := rfl
@[simp] theorem State.writeStatus_derNext (s : State) (d : BusWord) : (s.writeStatus d).derNext = s.derNext := rfl
@[simp] theorem State.writeStatus_derCnt (s : State) (d : BusWord) : (s.writeStatus d).derCnt = s.derCnt := rfl
@[simp] theorem State.writeStatus_mem (s : State) (d : BusWord) : (s.writeStatus d).mem = s.mem := rfl
@[simp] theorem State.writeStatus_epoch (s : State) (d : BusWord) : (s.writeStatus d).epoch = s.epoch := rfl
@[simp] theorem State.writeStatus_events (s : State) (d : BusWord) : (s.writeStatus d).events = s.events := rfl
@[simp] theorem State.writeStatus_resp (s : State) (d : BusWord) : (s.writeStatus d).resp = s.resp := rfl

/-! ### State.respond -/

@[simp] theorem State.respond_regs (s : State) (r : BusResponse) : (s.respond r).regs = s.regs := rfl
@[simp] theorem State.respond_id (s : State) (r : BusResponse) : (s.respond r).id = s.id := rfl
@[simp] theorem State.respond_ie (s : State) (r : BusResponse) : (s.respond r).ie = s.ie := rfl
@[simp] theorem State.respond_busy (s : State) (r : BusResponse) : (s.respond r).busy = s.busy := rfl
@[simp] theorem State.respond_done (s : State) (r : BusResponse) : (s.respond r).done = s.done := rfl
@[simp] theorem State.respond_err (s : State) (r : BusResponse) : (s.respond r).err = s.err := rfl
@[simp] theorem State.respond_z (s : State) (r : BusResponse) : (s.respond r).z = s.z := rfl
@[simp] theorem State.respond_rg (s : State) (r : BusResponse) : (s.respond r).rg = s.rg := rfl
@[simp] theorem State.respond_ovr (s : State) (r : BusResponse) : (s.respond r).ovr = s.ovr := rfl
@[simp] theorem State.respond_cmd (s : State) (r : BusResponse) : (s.respond r).cmd = s.cmd := rfl
@[simp] theorem State.respond_cause (s : State) (r : BusResponse) : (s.respond r).cause = s.cause := rfl
@[simp] theorem State.respond_detail (s : State) (r : BusResponse) : (s.respond r).detail = s.detail := rfl
@[simp] theorem State.respond_errpos (s : State) (r : BusResponse) : (s.respond r).errpos = s.errpos := rfl
@[simp] theorem State.respond_derPtr (s : State) (r : BusResponse) : (s.respond r).derPtr = s.derPtr := rfl
@[simp] theorem State.respond_derEnd (s : State) (r : BusResponse) : (s.respond r).derEnd = s.derEnd := rfl
@[simp] theorem State.respond_derTag (s : State) (r : BusResponse) : (s.respond r).derTag = s.derTag := rfl
@[simp] theorem State.respond_derLen (s : State) (r : BusResponse) : (s.respond r).derLen = s.derLen := rfl
@[simp] theorem State.respond_derVoff (s : State) (r : BusResponse) : (s.respond r).derVoff = s.derVoff := rfl
@[simp] theorem State.respond_derNext (s : State) (r : BusResponse) : (s.respond r).derNext = s.derNext := rfl
@[simp] theorem State.respond_derCnt (s : State) (r : BusResponse) : (s.respond r).derCnt = s.derCnt := rfl
@[simp] theorem State.respond_mem (s : State) (r : BusResponse) : (s.respond r).mem = s.mem := rfl
@[simp] theorem State.respond_epoch (s : State) (r : BusResponse) : (s.respond r).epoch = s.epoch := rfl
@[simp] theorem State.respond_events (s : State) (r : BusResponse) : (s.respond r).events = s.events := rfl
@[simp] theorem State.respond_resp (s : State) (r : BusResponse) : (s.respond r).resp = some r := rfl

/-! ### State.setPair: only the registers change -/

@[simp] theorem State.setPair_id (s : State) (i : RegIdx) (x y : RegWord) : (s.setPair i x y).id = s.id := rfl
@[simp] theorem State.setPair_ie (s : State) (i : RegIdx) (x y : RegWord) : (s.setPair i x y).ie = s.ie := rfl
@[simp] theorem State.setPair_busy (s : State) (i : RegIdx) (x y : RegWord) : (s.setPair i x y).busy = s.busy := rfl
@[simp] theorem State.setPair_done (s : State) (i : RegIdx) (x y : RegWord) : (s.setPair i x y).done = s.done := rfl
@[simp] theorem State.setPair_err (s : State) (i : RegIdx) (x y : RegWord) : (s.setPair i x y).err = s.err := rfl
@[simp] theorem State.setPair_z (s : State) (i : RegIdx) (x y : RegWord) : (s.setPair i x y).z = s.z := rfl
@[simp] theorem State.setPair_rg (s : State) (i : RegIdx) (x y : RegWord) : (s.setPair i x y).rg = s.rg := rfl
@[simp] theorem State.setPair_ovr (s : State) (i : RegIdx) (x y : RegWord) : (s.setPair i x y).ovr = s.ovr := rfl
@[simp] theorem State.setPair_cmd (s : State) (i : RegIdx) (x y : RegWord) : (s.setPair i x y).cmd = s.cmd := rfl
@[simp] theorem State.setPair_cause (s : State) (i : RegIdx) (x y : RegWord) : (s.setPair i x y).cause = s.cause := rfl
@[simp] theorem State.setPair_detail (s : State) (i : RegIdx) (x y : RegWord) : (s.setPair i x y).detail = s.detail := rfl
@[simp] theorem State.setPair_errpos (s : State) (i : RegIdx) (x y : RegWord) : (s.setPair i x y).errpos = s.errpos := rfl
@[simp] theorem State.setPair_derPtr (s : State) (i : RegIdx) (x y : RegWord) : (s.setPair i x y).derPtr = s.derPtr := rfl
@[simp] theorem State.setPair_derEnd (s : State) (i : RegIdx) (x y : RegWord) : (s.setPair i x y).derEnd = s.derEnd := rfl
@[simp] theorem State.setPair_derTag (s : State) (i : RegIdx) (x y : RegWord) : (s.setPair i x y).derTag = s.derTag := rfl
@[simp] theorem State.setPair_derLen (s : State) (i : RegIdx) (x y : RegWord) : (s.setPair i x y).derLen = s.derLen := rfl
@[simp] theorem State.setPair_derVoff (s : State) (i : RegIdx) (x y : RegWord) : (s.setPair i x y).derVoff = s.derVoff := rfl
@[simp] theorem State.setPair_derNext (s : State) (i : RegIdx) (x y : RegWord) : (s.setPair i x y).derNext = s.derNext := rfl
@[simp] theorem State.setPair_derCnt (s : State) (i : RegIdx) (x y : RegWord) : (s.setPair i x y).derCnt = s.derCnt := rfl
@[simp] theorem State.setPair_mem (s : State) (i : RegIdx) (x y : RegWord) : (s.setPair i x y).mem = s.mem := rfl
@[simp] theorem State.setPair_epoch (s : State) (i : RegIdx) (x y : RegWord) : (s.setPair i x y).epoch = s.epoch := rfl
@[simp] theorem State.setPair_events (s : State) (i : RegIdx) (x y : RegWord) : (s.setPair i x y).events = s.events := rfl
@[simp] theorem State.setPair_resp (s : State) (i : RegIdx) (x y : RegWord) : (s.setPair i x y).resp = s.resp := rfl

/-! ### State.reset -/

@[simp] theorem State.reset_regs : State.reset.regs = Vector.replicate 16 0 := rfl
@[simp] theorem State.reset_id : State.reset.id = Config.idDefault := rfl
@[simp] theorem State.reset_ie : State.reset.ie = false := rfl
@[simp] theorem State.reset_busy : State.reset.busy = false := rfl
@[simp] theorem State.reset_done : State.reset.done = false := rfl
@[simp] theorem State.reset_err : State.reset.err = false := rfl
@[simp] theorem State.reset_z : State.reset.z = false := rfl
@[simp] theorem State.reset_rg : State.reset.rg = false := rfl
@[simp] theorem State.reset_ovr : State.reset.ovr = false := rfl
@[simp] theorem State.reset_cmd : State.reset.cmd = 0 := rfl
@[simp] theorem State.reset_cause : State.reset.cause = Cause.none := rfl
@[simp] theorem State.reset_detail : State.reset.detail = Detail.none := rfl
@[simp] theorem State.reset_errpos : State.reset.errpos = 0 := rfl
@[simp] theorem State.reset_derPtr : State.reset.derPtr = 0 := rfl
@[simp] theorem State.reset_derEnd : State.reset.derEnd = 0 := rfl
@[simp] theorem State.reset_derTag : State.reset.derTag = 0 := rfl
@[simp] theorem State.reset_derLen : State.reset.derLen = 0 := rfl
@[simp] theorem State.reset_derVoff : State.reset.derVoff = 0 := rfl
@[simp] theorem State.reset_derNext : State.reset.derNext = 0 := rfl
@[simp] theorem State.reset_derCnt : State.reset.derCnt = 0 := rfl
@[simp] theorem State.reset_mem : State.reset.mem = [] := rfl
@[simp] theorem State.reset_epoch : State.reset.epoch = 0 := rfl
@[simp] theorem State.reset_events : State.reset.events = [] := rfl
@[simp] theorem State.reset_resp : State.reset.resp = none := rfl

/-! ### Operand registers -/

/-- Reading a register after writing one: the new value at the written index, the old one elsewhere. -/
theorem State.reg_setReg (s : State) (i j : RegIdx) (v : RegWord) :
    (s.setReg i v).reg j = if i = j then v else s.reg j := by
  simp [State.reg, State.setReg, Vector.getElem_set, BitVec.toNat_inj]

@[simp] theorem State.reg_setReg_same (s : State) (i : RegIdx) (v : RegWord) : (s.setReg i v).reg i = v := by
  simp [State.reg_setReg]

theorem State.reg_setReg_other (s : State) {i j : RegIdx} (h : i ≠ j) (v : RegWord) :
    (s.setReg i v).reg j = s.reg j := by
  simp [State.reg_setReg, h]

/-- The two registers of a pair are different registers. -/
theorem pairSnd_ne (i : RegIdx) : pairSnd i ≠ i := by
  revert i; decide

/-- Reading a register after writing a pair. -/
theorem State.reg_setPair (s : State) (i j : RegIdx) (x y : RegWord) :
    (s.setPair i x y).reg j = if pairSnd i = j then y else if i = j then x else s.reg j := by
  simp only [State.setPair, State.reg_setReg]

@[simp] theorem State.reg_setPair_fst (s : State) (i : RegIdx) (x y : RegWord) : (s.setPair i x y).reg i = x := by
  simp [State.reg_setPair, pairSnd_ne]

@[simp] theorem State.reg_setPair_snd (s : State) (i : RegIdx) (x y : RegWord) :
    (s.setPair i x y).reg (pairSnd i) = y := by
  simp [State.reg_setPair]

/-- A register's value depends on the register file alone. -/
theorem State.reg_congr {s t : State} (h : t.regs = s.regs) (i : RegIdx) : t.reg i = s.reg i := by
  simp only [State.reg, h]

theorem State.regNat_congr {s t : State} (h : t.regs = s.regs) (i : RegIdx) : t.regNat i = s.regNat i := by
  simp only [State.regNat, State.reg_congr h]

theorem State.regNat_lt (s : State) (i : RegIdx) : s.regNat i < 2 ^ 256 := (s.reg i).isLt

/-- Two register files with the same registers are equal. -/
theorem State.regs_ext {s t : State} (h : ∀ i : RegIdx, s.reg i = t.reg i) : s.regs = t.regs := by
  apply Vector.ext
  intro i hi
  have := h (BitVec.ofNat 4 i)
  simp only [State.reg, BitVec.toNat_ofNat, Nat.mod_eq_of_lt (show i < 2 ^ 4 by omega)] at this
  exact this

/-! ### The DER buffer -/

/-- A buffer byte depends on the memory and the epoch alone. -/
theorem State.derByte_congr {s t : State} (hm : t.mem = s.mem) (he : t.epoch = s.epoch) (i : Nat) :
    t.derByte i = s.derByte i := by
  simp only [State.derByte, hm, he]

@[simp] theorem State.derByte_setReg (s : State) (i : RegIdx) (v : RegWord) : (s.setReg i v).derByte = s.derByte := rfl
@[simp] theorem State.derByte_raise (s : State) (c : Cause) (d : Detail) (pos : Offset) : (s.raise c d pos).derByte = s.derByte := rfl
@[simp] theorem State.derByte_complete (s : State) (z rg : Bool) : (s.complete z rg).derByte = s.derByte := rfl
@[simp] theorem State.derByte_accept (s : State) (w : BusWord) : (s.accept w).derByte = s.derByte := rfl
@[simp] theorem State.derByte_dropWrite (s : State) : (s.dropWrite).derByte = s.derByte := rfl
@[simp] theorem State.derByte_softReset (s : State) : (s.softReset).derByte = s.derByte := rfl
@[simp] theorem State.derByte_setDer (s : State) (tag : Byte) (len voff next : Nat) : (s.setDer tag len voff next).derByte = s.derByte := rfl
@[simp] theorem State.derByte_setCnt (s : State) (n : Nat) : (s.setCnt n).derByte = s.derByte := rfl
@[simp] theorem State.derByte_writeStatus (s : State) (d : BusWord) : (s.writeStatus d).derByte = s.derByte := rfl
@[simp] theorem State.derByte_respond (s : State) (r : BusResponse) : (s.respond r).derByte = s.derByte := rfl
@[simp] theorem State.derByte_setPair (s : State) (i : RegIdx) (x y : RegWord) : (s.setPair i x y).derByte = s.derByte := rfl
@[simp] theorem State.reg_raise (s : State) (c : Cause) (d : Detail) (pos : Offset) : (s.raise c d pos).reg = s.reg := rfl
@[simp] theorem State.regNat_raise (s : State) (c : Cause) (d : Detail) (pos : Offset) : (s.raise c d pos).regNat = s.regNat := rfl
@[simp] theorem State.reg_complete (s : State) (z rg : Bool) : (s.complete z rg).reg = s.reg := rfl
@[simp] theorem State.regNat_complete (s : State) (z rg : Bool) : (s.complete z rg).regNat = s.regNat := rfl
@[simp] theorem State.reg_accept (s : State) (w : BusWord) : (s.accept w).reg = s.reg := rfl
@[simp] theorem State.regNat_accept (s : State) (w : BusWord) : (s.accept w).regNat = s.regNat := rfl
@[simp] theorem State.reg_dropWrite (s : State) : (s.dropWrite).reg = s.reg := rfl
@[simp] theorem State.regNat_dropWrite (s : State) : (s.dropWrite).regNat = s.regNat := rfl
@[simp] theorem State.reg_setDer (s : State) (tag : Byte) (len voff next : Nat) : (s.setDer tag len voff next).reg = s.reg := rfl
@[simp] theorem State.regNat_setDer (s : State) (tag : Byte) (len voff next : Nat) : (s.setDer tag len voff next).regNat = s.regNat := rfl
@[simp] theorem State.reg_setCnt (s : State) (n : Nat) : (s.setCnt n).reg = s.reg := rfl
@[simp] theorem State.regNat_setCnt (s : State) (n : Nat) : (s.setCnt n).regNat = s.regNat := rfl
@[simp] theorem State.reg_writeStatus (s : State) (d : BusWord) : (s.writeStatus d).reg = s.reg := rfl
@[simp] theorem State.regNat_writeStatus (s : State) (d : BusWord) : (s.writeStatus d).regNat = s.regNat := rfl
@[simp] theorem State.reg_respond (s : State) (r : BusResponse) : (s.respond r).reg = s.reg := rfl
@[simp] theorem State.regNat_respond (s : State) (r : BusResponse) : (s.respond r).regNat = s.regNat := rfl

/-- Both resets clear every operand register (70_reset_and_hazards.md R274). -/
theorem State.reg_reset (i : RegIdx) : State.reset.reg i = 0 := by
  simp [State.reg]

end Sys2Proof.Machine
end

