-- ==== Sys2Proof/Laws/Operands.lean ====
section
/-! SUPPORT. What each shared operation can do, said once: the provers cite these instead of unfolding. -/

namespace Sys2Proof.Machine

/-- A field operand below the modulus is handed on. -/
theorem withField_ok {m : Nat} {i : RegIdx} {s : State} (k : Nat → Result) (h : s.regNat i < m) :
    withField m i s k = k (s.regNat i) := by
  simp [withField, h]

/-- A field operand at or above the modulus raises ENCODING(i) (40_field.md R121). -/
theorem withField_error {m : Nat} {i : RegIdx} {s : State} (k : Nat → Result) (h : m ≤ s.regNat i) :
    withField m i s k = .next (s.raise .encoding .none (i.setWidth 12)) := by
  simp [withField, raised, h]

/-- Everything a field operand can do. -/
theorem withField_next {m : Nat} {i : RegIdx} {s t : State} {k : Nat → Result} (h : withField m i s k = .next t) :
    (m ≤ s.regNat i ∧ t = s.raise .encoding .none (i.setWidth 12)) ∨
      (s.regNat i < m ∧ k (s.regNat i) = .next t) := by
  by_cases hm : m ≤ s.regNat i
  · rw [withField_error k hm] at h
    injection h with h
    exact Or.inl ⟨hm, h.symm⟩
  · exact Or.inr ⟨by omega, by rwa [withField_ok k (by omega)] at h⟩

/-- Everything a pair operand can do. -/
theorem withPair_next {i : RegIdx} {s t : State} {k : Nat → Nat → Result} (h : withPair i s k = .next t) :
    (∃ j, (j = i ∨ j = pairSnd i) ∧ curveP ≤ s.regNat j ∧ t = s.raise .encoding .none (j.setWidth 12)) ∨
      (s.regNat i < curveP ∧ s.regNat (pairSnd i) < curveP ∧ k (s.regNat i) (s.regNat (pairSnd i)) = .next t) := by
  rcases withField_next h with ⟨hm, ht⟩ | ⟨hx, h⟩
  · exact Or.inl ⟨i, Or.inl rfl, hm, ht⟩
  · rcases withField_next h with ⟨hm, ht⟩ | ⟨hy, h⟩
    · exact Or.inl ⟨pairSnd i, Or.inr rfl, hm, ht⟩
    · exact Or.inr ⟨hx, hy, h⟩

/-- Everything a curve check can do. -/
theorem withOnCurve_next {i : RegIdx} {x y : Nat} {s t : State} {k : Point → Result}
    (h : withOnCurve i x y s k = .next t) :
    (onCurve x y = false ∧ t = s.raise .domain .none (i.setWidth 12)) ∨
      (onCurve x y = true ∧ k (Point.ofPair x y) = .next t) := by
  unfold withOnCurve at h
  split_ifs at h with hc
  · exact Or.inr ⟨hc, h⟩
  · unfold raised at h
    injection h with h
    exact Or.inl ⟨by simpa using hc, h.symm⟩

/-- Everything a parse can do. -/
theorem withParse_next {α : Type} {r : Except FormatError α} {s t : State} {k : α → Result}
    (h : withParse r s k = .next t) :
    (∃ e, r = .error e ∧ t = s.raise .format e.detail (BitVec.ofNat 12 e.pos)) ∨ (∃ a, r = .ok a ∧ k a = .next t) := by
  cases r with
  | error e =>
    simp only [withParse, raisedFormat, raised] at h
    injection h with h
    exact Or.inl ⟨e, rfl, h.symm⟩
  | ok a => exact Or.inr ⟨a, rfl, h⟩

/-- The slice check of every DER command passes (42_der.md R193). -/
abbrev State.sliceOk (s : State) : Prop := s.derPtr.toNat ≤ s.derEnd.toNat ∧ s.derEnd.toNat ≤ Config.derSize

/-- Everything taking the slice's first element can do. -/
theorem withElement_next {s t : State} {k : Tlv → Result} (h : withElement s k = .next t) :
    (¬ s.sliceOk ∧ t = s.raise .format .badSlice s.derPtr) ∨
      (∃ e, s.sliceOk ∧ tlv s.derByte s.derPtr.toNat s.derEnd.toNat = .error e ∧
        t = s.raise .format e.detail (BitVec.ofNat 12 e.pos)) ∨
      (∃ a, s.sliceOk ∧ tlv s.derByte s.derPtr.toNat s.derEnd.toNat = .ok a ∧ k a = .next t) := by
  unfold withElement at h
  split_ifs at h with hs
  · rcases withParse_next h with ⟨e, he, ht⟩ | ⟨a, ha, hk⟩
    · exact Or.inr (Or.inl ⟨e, hs, he, ht⟩)
    · exact Or.inr (Or.inr ⟨a, hs, ha, hk⟩)
  · simp only [raisedFormat, raised] at h
    injection h with h
    refine Or.inl ⟨hs, ?_⟩
    rw [← h]
    simp

/-- Everything taking a tagged element can do. -/
theorem withTagged_next {tag : Byte} {s t : State} {k : Tlv → Result} (h : withTagged tag s k = .next t) :
    (∃ d pos, t = s.raise .format d pos) ∨
      (∃ a, s.sliceOk ∧ tlv s.derByte s.derPtr.toNat s.derEnd.toNat = .ok a ∧ a.tag = tag ∧ k a = .next t) := by
  rcases withElement_next h with ⟨_, ht⟩ | ⟨e, _, _, ht⟩ | ⟨a, hs, ha, hk⟩
  · exact Or.inl ⟨_, _, ht⟩
  · exact Or.inl ⟨_, _, ht⟩
  · split_ifs at hk with htag
    · exact Or.inr ⟨a, hs, ha, htag, hk⟩
    · simp only [raisedFormat, raised] at hk
      injection hk with hk
      exact Or.inl ⟨_, _, hk.symm⟩

/-- An error completion as a step's answer. -/
theorem raised_next {s t : State} {c : Cause} {d : Detail} {pos : Offset} (h : raised s c d pos = .next t) :
    t = s.raise c d pos := by
  unfold raised at h; injection h with h; exact h.symm

/-- A FORMAT error as a step's answer. -/
theorem raisedFormat_next {e : FormatError} {s t : State} (h : raisedFormat e s = .next t) :
    t = s.raise .format e.detail (BitVec.ofNat 12 e.pos) := raised_next h

/-- A successful completion as a step's answer. -/
theorem completed_next {s t : State} {z rg : Bool} (h : completed s z rg = .next t) : t = s.complete z rg := by
  unfold completed at h; injection h with h; exact h.symm

/-- Writing a field element as a step's answer. -/
theorem writeField_next {rd : RegIdx} {r : Nat} {s t : State} (h : writeField rd r s = .next t) :
    t = (s.setReg rd (BitVec.ofNat 256 r)).complete (zeroFlag r) false := completed_next h

/-- Writing a point as a step's answer. -/
theorem writePoint_next {rd : RegIdx} {S : Point} {s t : State} (h : writePoint rd S s = .next t) :
    t = (s.setPair rd (BitVec.ofNat 256 S.xOut) (BitVec.ofNat 256 S.yOut)).complete S.isInf false := completed_next h

end Sys2Proof.Machine
end

