-- ==== Sys2Proof/Laws/Exec.lean ====
section
/-! SUPPORT. What a command can do, said once: the meaning each arm calls, and every way a command ends. -/

set_option linter.unusedSimpArgs false

namespace Sys2Proof.Machine

/-! ### The meaning each arm calls -/

@[simp] theorem exec_fadd (m : Modulus) (rd ra rb : RegIdx) (s : State) : exec (.fadd m rd ra rb) s = execFadd m rd ra rb s := rfl
@[simp] theorem exec_fsub (m : Modulus) (rd ra rb : RegIdx) (s : State) : exec (.fsub m rd ra rb) s = execFsub m rd ra rb s := rfl
@[simp] theorem exec_fneg (m : Modulus) (rd ra : RegIdx) (s : State) : exec (.fneg m rd ra) s = execFneg m rd ra s := rfl
@[simp] theorem exec_fmul (m : Modulus) (rd ra rb : RegIdx) (s : State) : exec (.fmul m rd ra rb) s = execFmul m rd ra rb s := rfl
@[simp] theorem exec_mmul (m : Modulus) (rd ra rb : RegIdx) (s : State) : exec (.mmul m rd ra rb) s = execMmul m rd ra rb s := rfl
@[simp] theorem exec_finv (m : Modulus) (rd ra : RegIdx) (s : State) : exec (.finv m rd ra) s = execFinv m rd ra s := rfl
@[simp] theorem exec_fsqrt (par : Bool) (rd ra : RegIdx) (s : State) : exec (.fsqrt par rd ra) s = execFsqrt par rd ra s := rfl
@[simp] theorem exec_fred (m : Modulus) (rd ra : RegIdx) (s : State) : exec (.fred m rd ra) s = execFred m rd ra s := rfl
@[simp] theorem exec_bred (m : Modulus) (rd ra rb : RegIdx) (s : State) : exec (.bred m rd ra rb) s = execBred m rd ra rb s := rfl
@[simp] theorem exec_ldc (rd k : RegIdx) (s : State) : exec (.ldc rd k) s = execLdc rd k s := rfl
@[simp] theorem exec_padd (rd ra rb : RegIdx) (s : State) : exec (.padd rd ra rb) s = execPadd rd ra rb s := rfl
@[simp] theorem exec_pdbl (rd ra : RegIdx) (s : State) : exec (.pdbl rd ra) s = execPdbl rd ra s := rfl
@[simp] theorem exec_pmul (rd ra rb : RegIdx) (s : State) : exec (.pmul rd ra rb) s = execPmul rd ra rb s := rfl
@[simp] theorem exec_dtlv (s : State) : exec .dtlv s = execDtlv s := rfl
@[simp] theorem exec_dint (rd : RegIdx) (s : State) : exec (.dint rd) s = execDint rd s := rfl
@[simp] theorem exec_dseq (s : State) : exec .dseq s = execDseq s := rfl
@[simp] theorem exec_dbit (s : State) : exec .dbit s = execDbit s := rfl

/-! ### Every way a command ends -/

/-- How the command i can end in the state s: by one of its causes, or by writing its destination. -/
inductive Ends (i : Instr) (s : State) : State → Prop
  | error (c : Cause) (d : Detail) (p : Offset) : c ∈ i.causes → (d ≠ .none ↔ c = .format) → Ends i s (s.raise c d p)
  | field (rd : RegIdx) (r : RegWord) (z : Bool) : i.dests = [rd] → (∀ j, i ∉ derCommands j) →
      Ends i s ((s.setReg rd r).complete z false)
  | point (rd : RegIdx) (x y : RegWord) (z : Bool) : i.dests = [rd, rd + 1] → (∀ j, i ∉ derCommands j) →
      Ends i s ((s.setPair rd x y).complete z false)
  | dtlv (tag : Byte) (l v n : Nat) (z : Bool) : i = .dtlv → Ends i s ((s.setDer tag l v n).complete z false)
  | dint (rd : RegIdx) (r : RegWord) (l v n : Nat) (z g : Bool) : i = .dint rd →
      Ends i s (((s.setReg rd r).setDer 2 l v n).complete z g)
  | dseq (l v n c : Nat) (z : Bool) : i = .dseq → Ends i s (((s.setDer 0x30 l v n).setCnt c).complete z false)
  | dbit (l v n : Nat) (z : Bool) : i = .dbit → Ends i s ((s.setDer 3 l v n).complete z false)

/-- An error of a parse carries a detail. -/
theorem tlvValue_detail {tag : Byte} {len v e : Nat} {x : FormatError}
    (h : tlvValue tag len v e = .error x) : x.detail ≠ .none := by
  unfold tlvValue at h; split_ifs at h; injection h with h; subst h; simp

/-- An error of an element's parse carries a detail. -/
theorem tlv_detail {byte : Nat → Byte} {s e : Nat} {x : FormatError} (h : tlv byte s e = .error x) : x.detail ≠ .none := by
  unfold tlv at h; split_ifs at h
  · injection h with h; subst h; simp
  · simp only at h; split_ifs at h
    · exact tlvValue_detail h
    · injection h with h; subst h; simp
    · unfold tlvLong at h; split_ifs at h
      · injection h with h; subst h; simp
      · injection h with h; subst h; simp
      · simp only at h; split_ifs at h
        · injection h with h; subst h; simp
        · exact tlvValue_detail h

/-- An error of the element loop carries a detail. -/
theorem countElements_detail {byte : Nat → Byte} {stop : Nat} {x : FormatError} : ∀ f i c : Nat, countElements byte stop f i c = .error x → x.detail ≠ .none := by
  intro f
  induction f with
  | zero => intro i c h; simp [countElements] at h
  | succ f ih =>
    intro i c h
    simp only [countElements] at h
    split_ifs at h
    cases ht : tlv byte i stop with
    | error e => simp [ht] at h; subst h; exact tlv_detail ht
    | ok t => simp [ht] at h; exact ih _ _ h

/-- The ends of a field command with two operands. -/
theorem ends_field {i : Instr} {m : Nat} {ra rb rd : RegIdx} {s t : State} {f : Nat → Nat → Nat}
    (hc : .encoding ∈ i.causes) (hd : i.dests = [rd]) (hn : ∀ r, i ∉ derCommands r)
    (h : (withField m ra s fun a => withField m rb s fun b => writeField rd (f a b) s) = .next t) : Ends i s t := by
  rcases withField_next h with ⟨_, rfl⟩ | ⟨_, h⟩
  · exact .error _ _ _ hc (by simp)
  rcases withField_next h with ⟨_, rfl⟩ | ⟨_, h⟩
  · exact .error _ _ _ hc (by simp)
  rw [writeField_next h]; exact .field _ _ _ hd hn

/-- The ends of a point command with one point operand. -/
theorem ends_point {i : Instr} {ra rd : RegIdx} {s t : State} {f : Point → Point} (hc : .encoding ∈ i.causes)
    (hc2 : .domain ∈ i.causes) (hd : i.dests = [rd, rd + 1]) (hn : ∀ r, i ∉ derCommands r)
    (h : (withPoint ra s fun P => writePoint rd (f P) s) = .next t) : Ends i s t := by
  rcases withPair_next h with ⟨j, _, _, rfl⟩ | ⟨_, _, h⟩
  · exact .error _ _ _ hc (by simp)
  rcases withOnCurve_next h with ⟨_, rfl⟩ | ⟨_, h⟩
  · exact .error _ _ _ hc2 (by simp)
  rw [writePoint_next h]; exact .point _ _ _ _ hd hn

/-- Everything taking a tagged element can do, with the detail of its error. -/
theorem withTagged_detail {tag : Byte} {s t : State} {k : Tlv → Result} (h : withTagged tag s k = .next t) :
    (∃ d pos, t = s.raise .format d pos ∧ d ≠ .none) ∨
      (∃ a, s.sliceOk ∧ tlv s.derByte s.derPtr.toNat s.derEnd.toNat = .ok a ∧ a.tag = tag ∧ k a = .next t) := by
  rcases withElement_next h with ⟨_, ht⟩ | ⟨e, _, he, ht⟩ | ⟨a, hs, ha, hk⟩
  · exact Or.inl ⟨_, _, ht, by simp⟩
  · exact Or.inl ⟨_, _, ht, tlv_detail he⟩
  · split_ifs at hk with htag
    · exact Or.inr ⟨a, hs, ha, htag, hk⟩
    · exact Or.inl ⟨_, _, raisedFormat_next hk, by simp⟩

/-- Everything a command can do. -/
theorem exec_ends (i : Instr) (s t : State) (h : exec i s = .next t) : Ends i s t := by
  cases i with
  | fadd m rd ra rb =>
    unfold exec execFadd at h
    exact ends_field (rd := rd) (by simp [Instr.causes]) rfl (by simp [derCommands]) h
  | fsub m rd ra rb =>
    unfold exec execFsub at h
    exact ends_field (rd := rd) (by simp [Instr.causes]) rfl (by simp [derCommands]) h
  | fmul m rd ra rb =>
    unfold exec execFmul at h
    exact ends_field (rd := rd) (by simp [Instr.causes]) rfl (by simp [derCommands]) h
  | mmul m rd ra rb =>
    unfold exec execMmul at h
    exact ends_field (rd := rd) (by simp [Instr.causes]) rfl (by simp [derCommands]) h
  | fneg m rd ra =>
    unfold exec execFneg at h
    rcases withField_next h with ⟨_, rfl⟩ | ⟨_, h⟩
    · exact .error _ _ _ (by simp [Instr.causes]) (by simp)
    rw [writeField_next h]; exact .field _ _ _ rfl (by simp [derCommands])
  | finv m rd ra =>
    unfold exec execFinv at h
    rcases withField_next h with ⟨_, rfl⟩ | ⟨_, h⟩
    · exact .error _ _ _ (by simp [Instr.causes]) (by simp)
    split_ifs at h
    · rw [raised_next h]; exact .error _ _ _ (by simp [Instr.causes]) (by simp)
    rw [writeField_next h]; exact .field _ _ _ rfl (by simp [derCommands])
  | fsqrt par rd ra =>
    unfold exec execFsqrt at h
    rcases withField_next h with ⟨_, rfl⟩ | ⟨_, h⟩
    · exact .error _ _ _ (by simp [Instr.causes]) (by simp)
    dsimp only at h
    split_ifs at h
    · rw [raised_next h]; exact .error _ _ _ (by simp [Instr.causes]) (by simp)
    · rw [writeField_next h]; exact .field _ _ _ rfl (by simp [derCommands])
    · rw [writeField_next h]; exact .field _ _ _ rfl (by simp [derCommands])
  | fred m rd ra => rw [writeField_next h]; exact .field _ _ _ rfl (by simp [derCommands])
  | bred m rd ra rb => rw [writeField_next h]; exact .field _ _ _ rfl (by simp [derCommands])
  | ldc rd k => rw [completed_next h]; exact .field _ _ _ rfl (by simp [derCommands])
  | padd rd ra rb =>
    unfold exec execPadd at h
    rcases withPair_next h with ⟨j, _, _, rfl⟩ | ⟨_, _, h⟩
    · exact .error _ _ _ (by simp [Instr.causes]) (by simp)
    rcases withPair_next h with ⟨j, _, _, rfl⟩ | ⟨_, _, h⟩
    · exact .error _ _ _ (by simp [Instr.causes]) (by simp)
    rcases withOnCurve_next h with ⟨_, rfl⟩ | ⟨_, h⟩
    · exact .error _ _ _ (by simp [Instr.causes]) (by simp)
    rcases withOnCurve_next h with ⟨_, rfl⟩ | ⟨_, h⟩
    · exact .error _ _ _ (by simp [Instr.causes]) (by simp)
    rw [writePoint_next h]; exact .point _ _ _ _ rfl (by simp [derCommands])
  | pdbl rd ra =>
    unfold exec execPdbl at h
    exact ends_point (rd := rd) (by simp [Instr.causes]) (by simp [Instr.causes]) rfl (by simp [derCommands]) h
  | pmul rd ra rb =>
    unfold exec execPmul at h
    exact ends_point (rd := rd) (f := fun P => scalarMul (s.regNat rb % curveQ) P) (by simp [Instr.causes]) (by simp [Instr.causes]) rfl (by simp [derCommands]) h
  | dtlv =>
    rcases withElement_next h with ⟨_, rfl⟩ | ⟨e, _, he, rfl⟩ | ⟨a, hs, ha, hk⟩
    · exact .error _ _ _ (by simp [Instr.causes]) (by simp)
    · exact .error _ _ _ (by simp [Instr.causes]) (by simp [tlv_detail he])
    · rw [completed_next hk]; exact .dtlv _ _ _ _ _ rfl
  | dint rd =>
    unfold exec execDint at h
    rcases withTagged_detail h with ⟨d, p, rfl, hd⟩ | ⟨a, hs, ha, htag, hk⟩
    · exact .error _ _ _ (by simp [Instr.causes]) (by simp [hd])
    dsimp only at hk
    split_ifs at hk
    · rw [raisedFormat_next hk]; exact .error _ _ _ (by simp [Instr.causes]) (by simp)
    · rw [raisedFormat_next hk]; exact .error _ _ _ (by simp [Instr.causes]) (by simp)
    · rw [completed_next hk]; exact .dint _ _ _ _ _ _ _ rfl
  | dseq =>
    unfold exec execDseq at h
    rcases withTagged_detail h with ⟨d, p, rfl, hd⟩ | ⟨a, hs, ha, htag, hk⟩
    · exact .error _ _ _ (by simp [Instr.causes]) (by simp [hd])
    rcases withParse_next hk with ⟨e, he, rfl⟩ | ⟨c, hc, hk⟩
    · exact .error _ _ _ (by simp [Instr.causes]) (by simp [countElements_detail _ _ _ he])
    · rw [completed_next hk]; exact .dseq _ _ _ _ _ rfl
  | dbit =>
    unfold exec execDbit at h
    rcases withTagged_detail h with ⟨d, p, rfl, hd⟩ | ⟨a, hs, ha, htag, hk⟩
    · exact .error _ _ _ (by simp [Instr.causes]) (by simp [hd])
    split_ifs at hk
    · rw [raisedFormat_next hk]; exact .error _ _ _ (by simp [Instr.causes]) (by simp)
    · rw [completed_next hk]; exact .dbit _ _ _ _ rfl

end Sys2Proof.Machine
end

