-- ==== Sys2Proof/Laws/Grammar.lean ====
section
/-! SUPPORT. The parser meets the grammar: what tlv answers, in the terms of the relations of Safety. -/

namespace Sys2Proof.Machine

/-- The value the parser computes byte by byte is the big-endian sum. -/
theorem beValue_eq (byte : Nat → Byte) (i n : Nat) : beValue byte i n = bigEndian byte i n := by
  induction n with
  | zero => simp [beValue, bigEndian]
  | succ n ih =>
    unfold bigEndian at *
    rw [beValue, Finset.sum_range_succ, ih, Finset.sum_mul]
    simp only [Nat.add_sub_cancel, Nat.sub_self, pow_zero, mul_one]
    congr 1
    apply Finset.sum_congr rfl
    intro j hj
    rw [mul_assoc, ← pow_succ]
    congr 2
    simp at hj; omega

/-- The low seven bits of a length byte above 0x80. -/
theorem and_0x7F (n : Nat) (h : 0x80 < n) (h2 : n < 256) : n &&& 0x7F = n - 0x80 := by
  interval_cases n <;> rfl

/-- tlv answers an element exactly when the slice starts with it (42_der.md R194). -/
theorem tlv_ok_iff (byte : Nat → Byte) (s e : Nat) (t : Tlv) : tlv byte s e = .ok t ↔ IsElement byte s e t := by
  unfold tlv IsElement
  have hb := (byte (s+1)).isLt
  obtain ⟨tag, len, voff, next⟩ := t
  generalize hl : (byte (s+1)).toNat = l at *
  dsimp only
  split_ifs with h1 h2 h3
  · simp only [false_iff]; rintro ⟨_, _⟩; omega
  · unfold tlvValue; split_ifs with h4
    · simp only [false_iff]
      rintro ⟨_, rfl, rfl, _, ⟨_, rfl, rfl⟩ | ⟨c, _, _, _⟩⟩ <;> omega
    · simp only [Except.ok.injEq, Tlv.mk.injEq]
      constructor
      · rintro ⟨rfl, rfl, rfl, rfl⟩; refine ⟨by omega, rfl, rfl, by omega, .inl ⟨h2, rfl, rfl⟩⟩
      · rintro ⟨_, rfl, rfl, _, ⟨_, rfl, rfl⟩ | ⟨c, _, _, _⟩⟩
        · simp
        · omega
  · simp only [false_iff]
    rintro ⟨_, rfl, rfl, _, ⟨_, rfl, rfl⟩ | ⟨c, _, _, _⟩⟩ <;> omega
  · unfold tlvLong
    rw [and_0x7F l (by omega) hb]
    have kill : ∀ c, l = 128 + c → c = l - 128 := by intros; omega
    have kl : l = 128 + (l - 128) := by omega
    have kp : 0 < l - 128 := by omega
    generalize l - 128 = k at *
    split_ifs with h4 h5
    · simp only [false_iff]
      rintro ⟨_, rfl, rfl, _, ⟨_, rfl, rfl⟩ | ⟨c, _, hc, _, _, _, rfl⟩⟩
      · omega
      · obtain rfl := kill c hc; omega
    · simp only [false_iff]
      rintro ⟨_, rfl, rfl, _, ⟨_, rfl, rfl⟩ | ⟨c, _, hc, hz, _, _, rfl⟩⟩
      · omega
      · exact hz h5
    · rw [beValue_eq]; dsimp only; split_ifs with h6
      · simp only [false_iff]
        rintro ⟨_, rfl, rfl, _, ⟨_, rfl, rfl⟩ | ⟨c, _, hc, hz, hl, _, rfl⟩⟩
        · omega
        · obtain rfl := kill c hc; omega
      · unfold tlvValue; split_ifs with h7
        · simp only [false_iff]
          rintro ⟨_, rfl, rfl, _, ⟨_, rfl, rfl⟩ | ⟨c, _, hc, hz, hl, _, rfl⟩⟩
          · omega
          · obtain rfl := kill c hc; omega
        · simp only [Except.ok.injEq, Tlv.mk.injEq]
          constructor
          · rintro ⟨rfl, rfl, rfl, rfl⟩; refine ⟨by omega, rfl, rfl, by omega, .inr ⟨_, by omega, by omega, h5, rfl, by omega, rfl⟩⟩
          · rintro ⟨_, rfl, rfl, _, ⟨_, rfl, rfl⟩ | ⟨c, _, hc, _, hl, _, rfl⟩⟩
            · omega
            · obtain rfl := kill c hc
              exact ⟨rfl, hl.symm, rfl, by omega⟩

/-- tlv raises a violation exactly when the slice starts with it (42_der.md R191, R192, R194). -/
theorem tlv_error_iff (byte : Nat → Byte) (s e : Nat) (d : Detail) (pos : Nat) :
    tlv byte s e = .error ⟨d, pos⟩ ↔ IsHeaderError byte s e d pos := by
  unfold tlv IsHeaderError
  have hb := (byte (s+1)).isLt
  generalize hl : (byte (s+1)).toNat = l at *
  dsimp only
  split_ifs with h1 h2 h3
  · simp only [Except.error.injEq, FormatError.mk.injEq]
    constructor
    · rintro ⟨rfl, rfl⟩; left; refine ⟨by omega, rfl, rfl⟩
    · rintro (h | h | h | h | h | h)
      · exact ⟨h.2.1.symm, h.2.2.symm⟩
      all_goals omega
  · unfold tlvValue; split_ifs with h4
    · simp only [Except.error.injEq, FormatError.mk.injEq]
      constructor
      · rintro ⟨rfl, rfl⟩; right; left; refine ⟨by omega, h2, by omega, rfl, rfl⟩
      · rintro (h | h | h | h | h | h) <;> first | omega | exact ⟨h.2.2.2.1.symm, h.2.2.2.2.symm⟩
    · simp
      omega
  · simp only [Except.error.injEq, FormatError.mk.injEq]
    constructor
    · rintro ⟨rfl, rfl⟩; right; right; left; refine ⟨by omega, h3, rfl, rfl⟩
    · rintro (h | h | h | h | h | h) <;> first | omega | exact ⟨h.2.2.1.symm, h.2.2.2.symm⟩
  · unfold tlvLong
    rw [and_0x7F l (by omega) hb]
    split_ifs with h4 h5
    · simp only [Except.error.injEq, FormatError.mk.injEq]
      constructor
      · rintro ⟨rfl, rfl⟩; right; right; right; left; refine ⟨by omega, by omega, by omega, rfl, rfl⟩
      · rintro (h | h | h | h | h | h) <;> first | omega | exact ⟨h.2.2.2.1.symm, h.2.2.2.2.symm⟩
    · simp only [Except.error.injEq, FormatError.mk.injEq]
      constructor
      · rintro ⟨rfl, rfl⟩; right; right; right; right; left; refine ⟨by omega, by omega, .inl h5, rfl, rfl⟩
      · rintro (h | h | h | h | h | h) <;> first | omega | exact ⟨h.2.2.2.1.symm, h.2.2.2.2.symm⟩ | exact absurd h5 h.2.2.1
    · rw [beValue_eq]; dsimp only; split_ifs with h6
      · simp only [Except.error.injEq, FormatError.mk.injEq]
        constructor
        · rintro ⟨rfl, rfl⟩; right; right; right; right; left; refine ⟨by omega, by omega, .inr h6, rfl, rfl⟩
        · rintro (h | h | h | h | h | h) <;> first | omega | exact ⟨h.2.2.2.1.symm, h.2.2.2.2.symm⟩
      · unfold tlvValue; split_ifs with h7
        · simp only [Except.error.injEq, FormatError.mk.injEq]
          constructor
          · rintro ⟨rfl, rfl⟩; right; right; right; right; right; refine ⟨by omega, by omega, h5, by omega, by omega, rfl, rfl⟩
          · rintro (h | h | h | h | h | h) <;> first | omega | (rcases h.2.2.1 with h | h <;> first | exact absurd h h5 | omega) | exact ⟨h.2.2.2.2.2.1.symm, h.2.2.2.2.2.2.symm⟩
        · simp only [false_iff]
          rintro (h | h | h | h | h | h) <;> first | omega | (rcases h.2.2.1 with h | h <;> first | exact absurd h h5 | omega)

end Sys2Proof.Machine
end

