-- ==== Sys2Proof/Laws/Memory.lean ====
section
/-! SUPPORT. Read after write, and the canonical form of the memory. -/

namespace Sys2Proof.Machine

/-- Reading the written address gives the written byte. -/
@[simp] theorem Memory.lookup_write_same (m : Memory) (a : Nat) (b : Byte) : (m.write a b).lookup a = some b := by
  induction m with
  | nil => simp [Memory.write, Memory.lookup]
  | cons c rest ih =>
    obtain ⟨k, v⟩ := c
    unfold Memory.write
    split_ifs with h1 h2
    · simp [Memory.lookup]
    · simp [Memory.lookup]
    · simp [Memory.lookup, ih, Ne.symm h2]

/-- A write leaves every other address alone. -/
theorem Memory.lookup_write_other (m : Memory) {a a' : Nat} (h : a' ≠ a) (b : Byte) :
    (m.write a b).lookup a' = m.lookup a' := by
  induction m with
  | nil => simp [Memory.write, Memory.lookup, Ne.symm h]
  | cons c rest ih =>
    obtain ⟨k, v⟩ := c
    unfold Memory.write
    split_ifs with h1 h2
    · simp [Memory.lookup, Ne.symm h]
    · subst h2; simp [Memory.lookup, Ne.symm h]
    · simp [Memory.lookup, ih]

/-- What a read finds after a write, at every address. -/
theorem Memory.lookup_write (m : Memory) (a a' : Nat) (b : Byte) :
    (m.write a b).lookup a' = if a' = a then some b else m.lookup a' := by
  by_cases h : a' = a
  · subst h; simp
  · simp [h, Memory.lookup_write_other m h]

/-- A write at or above the bound keeps a rising list rising. -/
theorem Memory.risingFrom_write (m : Memory) (lo a : Nat) (b : Byte) (hlo : lo ≤ a)
    (ha : a < Config.derBase + Config.derSize) (h : m.risingFrom lo = true) :
    (m.write a b).risingFrom lo = true := by
  induction m generalizing lo with
  | nil => simp [Memory.write, Memory.risingFrom, hlo, ha]
  | cons c rest ih =>
    obtain ⟨k, v⟩ := c
    simp only [Memory.risingFrom, Bool.and_eq_true, decide_eq_true_eq] at h
    unfold Memory.write
    split_ifs with h1 h2
    · simp only [Memory.risingFrom, Bool.and_eq_true, decide_eq_true_eq]
      exact ⟨⟨hlo, ha⟩, ⟨by omega, h.1.2⟩, h.2⟩
    · subst h2
      simp only [Memory.risingFrom, Bool.and_eq_true, decide_eq_true_eq]
      exact ⟨⟨hlo, ha⟩, h.2⟩
    · simp only [Memory.risingFrom, Bool.and_eq_true, decide_eq_true_eq]
      exact ⟨h.1, ih (k + 1) (by omega) h.2⟩

/-- A write inside the DER window keeps the canonical form. -/
theorem Memory.wf_write (m : Memory) (a : Nat) (b : Byte) (hlo : Config.derBase ≤ a)
    (ha : a < Config.derBase + Config.derSize) (h : m.wf = true) : (m.write a b).wf = true :=
  Memory.risingFrom_write m _ a b hlo ha h

/-- A word write inside the DER window keeps the canonical form. -/
theorem Memory.wf_writeWord (m : Memory) (a : Nat) (d : BusWord) (hlo : Config.derBase ≤ a)
    (ha : a + 3 < Config.derBase + Config.derSize) (h : m.wf = true) : (m.writeWord a d).wf = true := by
  unfold Memory.writeWord
  exact Memory.wf_write _ _ _ (by omega) (by omega) (Memory.wf_write _ _ _ (by omega) (by omega)
    (Memory.wf_write _ _ _ (by omega) (by omega) (Memory.wf_write _ _ _ (by omega) (by omega) h)))

/-- The reset memory is in canonical form. -/
theorem State.reset_mem_wf : State.reset.mem.wf = true := rfl

/-- A rising list lists nothing below its bound. -/
theorem Memory.lookup_below (m : Memory) (lo a : Nat) (h : m.risingFrom lo = true) (ha : a < lo) :
    m.lookup a = none := by
  induction m generalizing lo with
  | nil => rfl
  | cons c rest ih =>
    obtain ⟨k, v⟩ := c
    simp only [Memory.risingFrom, Bool.and_eq_true, decide_eq_true_eq] at h
    simp only [Memory.lookup, show ¬ k = a by omega, if_false]
    exact ih (k + 1) h.2 (by omega)

/-- Rising lists with the same contents are the same list. -/
theorem Memory.risingFrom_ext (m m' : Memory) (lo : Nat) (h : m.risingFrom lo = true)
    (h' : m'.risingFrom lo = true) (heq : ∀ a, m.lookup a = m'.lookup a) : m = m' := by
  induction m generalizing lo m' with
  | nil =>
    cases m' with
    | nil => rfl
    | cons c' rest' =>
      obtain ⟨k', v'⟩ := c'
      simpa [Memory.lookup] using heq k'
  | cons c rest ih =>
    obtain ⟨k, v⟩ := c
    cases m' with
    | nil => simpa [Memory.lookup] using heq k
    | cons c' rest' =>
      obtain ⟨k', v'⟩ := c'
      simp only [Memory.risingFrom, Bool.and_eq_true, decide_eq_true_eq] at h h'
      have hk : k = k' := by
        by_contra hne
        rcases Nat.lt_or_gt_of_ne hne with hlt | hgt
        · have := heq k
          simp [Memory.lookup, Ne.symm hne, Memory.lookup_below rest' (k' + 1) k h'.2 (by omega)] at this
        · have := heq k'
          simp [Memory.lookup, hne, Memory.lookup_below rest (k + 1) k' h.2 (by omega)] at this
      subst hk
      have hv : v = v' := by simpa [Memory.lookup] using heq k
      subst hv
      congr 1
      refine ih rest' (k + 1) h.2 h'.2 fun a => ?_
      by_cases ha : k = a
      · subst ha
        rw [Memory.lookup_below rest (k + 1) k h.2 (by omega), Memory.lookup_below rest' (k + 1) k h'.2 (by omega)]
      · simpa [Memory.lookup, ha] using heq a

/-- Equal memories are equal data: two canonical memories with the same listed bytes are the same list. -/
theorem Memory.wf_ext {m m' : Memory} (h : m.wf = true) (h' : m'.wf = true)
    (heq : ∀ a, m.lookup a = m'.lookup a) : m = m' :=
  Memory.risingFrom_ext m m' _ h h' heq

/-- A byte of the DER buffer after a word write: the word's byte inside the word, the old byte outside (20_memory.md
R62). -/
theorem State.derByte_writeWord (s : State) (off i : Nat) (d : BusWord) :
    ({ s with mem := s.mem.writeWord (Config.derBase + off) d } : State).derByte i =
      if i = off then d.extractLsb' 24 8 else if i = off + 1 then d.extractLsb' 16 8
      else if i = off + 2 then d.extractLsb' 8 8 else if i = off + 3 then d.extractLsb' 0 8 else s.derByte i := by
  simp only [State.derByte, Memory.writeWord, Memory.lookup_write]
  have e0 : (Config.derBase + i = Config.derBase + off) ↔ i = off := by omega
  have e1 : (Config.derBase + i = Config.derBase + off + 1) ↔ i = off + 1 := by omega
  have e2 : (Config.derBase + i = Config.derBase + off + 2) ↔ i = off + 2 := by omega
  have e3 : (Config.derBase + i = Config.derBase + off + 3) ↔ i = off + 3 := by omega
  simp only [e0, e1, e2, e3]
  by_cases h0 : i = off
  · subst h0; simp
  by_cases h1 : i = off + 1
  · subst h1; simp
  by_cases h2 : i = off + 2
  · subst h2; simp
  by_cases h3 : i = off + 3
  · subst h3; simp
  simp [h0, h1, h2, h3]

end Sys2Proof.Machine
end

