-- ==== Sys2Proof/Laws/PerInstr.lean ====
section
/-! SUPPORT. Facts about every command as syntax, one lemma per constructor: its word has RSV = 0 (30_encoding.md R91). -/

namespace Sys2Proof.Laws

/-- The encoded word has RSV = 0. -/
def RsvZero.Statement (i : Instr) : Prop := rsvField (encode i) = 0

theorem RsvZero.fadd (m : Modulus) (rd : RegIdx) (ra : RegIdx) (rb : RegIdx) : RsvZero.Statement (.fadd m rd ra rb) := rsvField_wordOf _ _ _ _ _ _

theorem RsvZero.fsub (m : Modulus) (rd : RegIdx) (ra : RegIdx) (rb : RegIdx) : RsvZero.Statement (.fsub m rd ra rb) := rsvField_wordOf _ _ _ _ _ _

theorem RsvZero.fneg (m : Modulus) (rd : RegIdx) (ra : RegIdx) : RsvZero.Statement (.fneg m rd ra) := rsvField_wordOf _ _ _ _ _ _

theorem RsvZero.fmul (m : Modulus) (rd : RegIdx) (ra : RegIdx) (rb : RegIdx) : RsvZero.Statement (.fmul m rd ra rb) := rsvField_wordOf _ _ _ _ _ _

theorem RsvZero.mmul (m : Modulus) (rd : RegIdx) (ra : RegIdx) (rb : RegIdx) : RsvZero.Statement (.mmul m rd ra rb) := rsvField_wordOf _ _ _ _ _ _

theorem RsvZero.finv (m : Modulus) (rd : RegIdx) (ra : RegIdx) : RsvZero.Statement (.finv m rd ra) := rsvField_wordOf _ _ _ _ _ _

theorem RsvZero.fsqrt (par : Bool) (rd : RegIdx) (ra : RegIdx) : RsvZero.Statement (.fsqrt par rd ra) := rsvField_wordOf _ _ _ _ _ _

theorem RsvZero.fred (m : Modulus) (rd : RegIdx) (ra : RegIdx) : RsvZero.Statement (.fred m rd ra) := rsvField_wordOf _ _ _ _ _ _

theorem RsvZero.bred (m : Modulus) (rd : RegIdx) (ra : RegIdx) (rb : RegIdx) : RsvZero.Statement (.bred m rd ra rb) := rsvField_wordOf _ _ _ _ _ _

theorem RsvZero.ldc (rd : RegIdx) (k : RegIdx) : RsvZero.Statement (.ldc rd k) := rsvField_wordOf _ _ _ _ _ _

theorem RsvZero.padd (rd : RegIdx) (ra : RegIdx) (rb : RegIdx) : RsvZero.Statement (.padd rd ra rb) := rsvField_wordOf _ _ _ _ _ _

theorem RsvZero.pdbl (rd : RegIdx) (ra : RegIdx) : RsvZero.Statement (.pdbl rd ra) := rsvField_wordOf _ _ _ _ _ _

theorem RsvZero.pmul (rd : RegIdx) (ra : RegIdx) (rb : RegIdx) : RsvZero.Statement (.pmul rd ra rb) := rsvField_wordOf _ _ _ _ _ _

theorem RsvZero.dtlv : RsvZero.Statement .dtlv := rsvField_wordOf _ _ _ _ _ _

theorem RsvZero.dint (rd : RegIdx) : RsvZero.Statement (.dint rd) := rsvField_wordOf _ _ _ _ _ _

theorem RsvZero.dseq : RsvZero.Statement .dseq := rsvField_wordOf _ _ _ _ _ _

theorem RsvZero.dbit : RsvZero.Statement .dbit := rsvField_wordOf _ _ _ _ _ _

end Sys2Proof.Laws
end

