-- ==== Sys2Proof/Laws/Primes.lean ====
section
/-! SUPPORT. p and q are prime (40_field.md R120), by Pratt certificates, and the inverse is an inverse. -/

namespace Sys2Proof.Machine

-- One thread, for its long kernel evaluations one after the other.
set_option Elab.async false

/-- Lucas's criterion over powMod: a has order n − 1 mod n, shown on the factors of n − 1. -/
theorem prime_of_certificate (n a : Nat) (fs : List Nat) (hn : 2 ≤ n ∧ n < 2 ^ 256) (hprod : fs.prod = n - 1)
    (hprime : ∀ q ∈ fs, q.Prime) (hone : powMod a (n - 1) n = 1)
    (hne : ∀ q ∈ fs, powMod a ((n - 1) / q) n ≠ 1) : n.Prime := by
  refine lucas_primality n (a : ZMod n) ?_ ?_
  · rw [← powMod_zmod a n (by omega), hone]; simp
  · intro q hq hdvd heq
    have hmem : q ∈ fs := by
      rw [← hprod] at hdvd
      obtain ⟨r, hr, hqr⟩ := (Nat.Prime.prime hq).dvd_prod_iff.mp hdvd
      rwa [(Nat.prime_dvd_prime_iff_eq hq (hprime r hr)).mp hqr]
    have hlt : (n - 1) / q < 2 ^ 256 := lt_of_le_of_lt (Nat.div_le_self _ _) (by omega)
    rw [← powMod_zmod a n hlt] at heq
    have h1 : ((1 : Nat) : ZMod n) = 1 := by simp
    rw [← h1, ZMod.natCast_eq_natCast_iff'] at heq
    rw [Nat.mod_eq_of_lt (powMod_lt a hlt (by omega)), Nat.mod_eq_of_lt (by omega)] at heq
    exact hne q hmem heq

theorem prime_6700417 : Nat.Prime 6700417 := by
  refine prime_of_certificate _ 5 [2, 2, 2, 2, 2, 2, 2, 3, 17449] (by decide +kernel) (by decide +kernel) ?_
    (by decide +kernel) (by decide +kernel)
  simp only [List.forall_mem_cons, List.not_mem_nil, false_implies, implies_true, and_true]
  refine ⟨?_, ?_, ?_, ?_, ?_, ?_, ?_, ?_, ?_⟩
  · norm_num
  · norm_num
  · norm_num
  · norm_num
  · norm_num
  · norm_num
  · norm_num
  · norm_num
  · norm_num

theorem prime_204061199 : Nat.Prime 204061199 := by
  refine prime_of_certificate _ 11 [2, 11, 23, 107, 3769] (by decide +kernel) (by decide +kernel) ?_
    (by decide +kernel) (by decide +kernel)
  simp only [List.forall_mem_cons, List.not_mem_nil, false_implies, implies_true, and_true]
  refine ⟨?_, ?_, ?_, ?_, ?_⟩
  · norm_num
  · norm_num
  · norm_num
  · norm_num
  · norm_num

theorem prime_34282281433 : Nat.Prime 34282281433 := by
  refine prime_of_certificate _ 17 [2, 2, 2, 3, 7, 204061199] (by decide +kernel) (by decide +kernel) ?_
    (by decide +kernel) (by decide +kernel)
  simp only [List.forall_mem_cons, List.not_mem_nil, false_implies, implies_true, and_true]
  refine ⟨?_, ?_, ?_, ?_, ?_, ?_⟩
  · norm_num
  · norm_num
  · norm_num
  · norm_num
  · norm_num
  · exact prime_204061199

theorem prime_66417393611 : Nat.Prime 66417393611 := by
  refine prime_of_certificate _ 6 [2, 5, 53, 173, 197, 3677] (by decide +kernel) (by decide +kernel) ?_
    (by decide +kernel) (by decide +kernel)
  simp only [List.forall_mem_cons, List.not_mem_nil, false_implies, implies_true, and_true]
  refine ⟨?_, ?_, ?_, ?_, ?_, ?_⟩
  · norm_num
  · norm_num
  · norm_num
  · norm_num
  · norm_num
  · norm_num

theorem prime_11290956913871 : Nat.Prime 11290956913871 := by
  refine prime_of_certificate _ 13 [2, 5, 17, 66417393611] (by decide +kernel) (by decide +kernel) ?_
    (by decide +kernel) (by decide +kernel)
  simp only [List.forall_mem_cons, List.not_mem_nil, false_implies, implies_true, and_true]
  refine ⟨?_, ?_, ?_, ?_⟩
  · norm_num
  · norm_num
  · norm_num
  · exact prime_66417393611

theorem prime_46076956964474543 : Nat.Prime 46076956964474543 := by
  refine prime_of_certificate _ 5 [2, 23, 18169, 78283, 704251] (by decide +kernel) (by decide +kernel) ?_
    (by decide +kernel) (by decide +kernel)
  simp only [List.forall_mem_cons, List.not_mem_nil, false_implies, implies_true, and_true]
  refine ⟨?_, ?_, ?_, ?_, ?_⟩
  · norm_num
  · norm_num
  · norm_num
  · norm_num
  · norm_num

theorem prime_774023187263532362759620327192479577272145303 : Nat.Prime 774023187263532362759620327192479577272145303 := by
  refine prime_of_certificate _ 3 [2, 3, 3, 2411, 34282281433, 11290956913871, 46076956964474543] (by decide +kernel) (by decide +kernel) ?_
    (by decide +kernel) (by decide +kernel)
  simp only [List.forall_mem_cons, List.not_mem_nil, false_implies, implies_true, and_true]
  refine ⟨?_, ?_, ?_, ?_, ?_, ?_, ?_⟩
  · norm_num
  · norm_num
  · norm_num
  · norm_num
  · exact prime_34282281433
  · exact prime_11290956913871
  · exact prime_46076956964474543

theorem prime_835945042244614951780389953367877943453916927241 : Nat.Prime 835945042244614951780389953367877943453916927241 := by
  refine prime_of_certificate _ 11 [2, 2, 2, 3, 3, 3, 5, 774023187263532362759620327192479577272145303] (by decide +kernel) (by decide +kernel) ?_
    (by decide +kernel) (by decide +kernel)
  simp only [List.forall_mem_cons, List.not_mem_nil, false_implies, implies_true, and_true]
  refine ⟨?_, ?_, ?_, ?_, ?_, ?_, ?_, ?_⟩
  · norm_num
  · norm_num
  · norm_num
  · norm_num
  · norm_num
  · norm_num
  · norm_num
  · exact prime_774023187263532362759620327192479577272145303

/-- Both moduli are prime (40_field.md R120). -/
theorem curveP_prime : Nat.Prime curveP := by
  refine prime_of_certificate _ 6 [2, 3, 5, 5, 17, 257, 641, 1531, 65537, 490463, 6700417, 835945042244614951780389953367877943453916927241] (by decide +kernel) (by decide +kernel) ?_
    (by decide +kernel) (by decide +kernel)
  simp only [List.forall_mem_cons, List.not_mem_nil, false_implies, implies_true, and_true]
  refine ⟨?_, ?_, ?_, ?_, ?_, ?_, ?_, ?_, ?_, ?_, ?_, ?_⟩
  · norm_num
  · norm_num
  · norm_num
  · norm_num
  · norm_num
  · norm_num
  · norm_num
  · norm_num
  · norm_num
  · norm_num
  · exact prime_6700417
  · exact prime_835945042244614951780389953367877943453916927241

theorem prime_9350987 : Nat.Prime 9350987 := by
  refine prime_of_certificate _ 2 [2, 17, 229, 1201] (by decide +kernel) (by decide +kernel) ?_
    (by decide +kernel) (by decide +kernel)
  simp only [List.forall_mem_cons, List.not_mem_nil, false_implies, implies_true, and_true]
  refine ⟨?_, ?_, ?_, ?_⟩
  · norm_num
  · norm_num
  · norm_num
  · norm_num

theorem prime_187019741 : Nat.Prime 187019741 := by
  refine prime_of_certificate _ 2 [2, 2, 5, 9350987] (by decide +kernel) (by decide +kernel) ?_
    (by decide +kernel) (by decide +kernel)
  simp only [List.forall_mem_cons, List.not_mem_nil, false_implies, implies_true, and_true]
  refine ⟨?_, ?_, ?_, ?_⟩
  · norm_num
  · norm_num
  · norm_num
  · exact prime_9350987

theorem prime_311245691 : Nat.Prime 311245691 := by
  refine prime_of_certificate _ 2 [2, 5, 7, 17, 29, 29, 311] (by decide +kernel) (by decide +kernel) ?_
    (by decide +kernel) (by decide +kernel)
  simp only [List.forall_mem_cons, List.not_mem_nil, false_implies, implies_true, and_true]
  refine ⟨?_, ?_, ?_, ?_, ?_, ?_, ?_⟩
  · norm_num
  · norm_num
  · norm_num
  · norm_num
  · norm_num
  · norm_num
  · norm_num

theorem prime_622491383 : Nat.Prime 622491383 := by
  refine prime_of_certificate _ 5 [2, 311245691] (by decide +kernel) (by decide +kernel) ?_
    (by decide +kernel) (by decide +kernel)
  simp only [List.forall_mem_cons, List.not_mem_nil, false_implies, implies_true, and_true]
  refine ⟨?_, ?_⟩
  · norm_num
  · exact prime_311245691

theorem prime_3969899 : Nat.Prime 3969899 := by
  refine prime_of_certificate _ 2 [2, 19, 104471] (by decide +kernel) (by decide +kernel) ?_
    (by decide +kernel) (by decide +kernel)
  simp only [List.forall_mem_cons, List.not_mem_nil, false_implies, implies_true, and_true]
  refine ⟨?_, ?_, ?_⟩
  · norm_num
  · norm_num
  · norm_num

theorem prime_1002328039319 : Nat.Prime 1002328039319 := by
  refine prime_of_certificate _ 19 [2, 126241, 3969899] (by decide +kernel) (by decide +kernel) ?_
    (by decide +kernel) (by decide +kernel)
  simp only [List.forall_mem_cons, List.not_mem_nil, false_implies, implies_true, and_true]
  refine ⟨?_, ?_, ?_⟩
  · norm_num
  · norm_num
  · exact prime_3969899

theorem prime_191039911 : Nat.Prime 191039911 := by
  refine prime_of_certificate _ 3 [2, 3, 5, 41, 155317] (by decide +kernel) (by decide +kernel) ?_
    (by decide +kernel) (by decide +kernel)
  simp only [List.forall_mem_cons, List.not_mem_nil, false_implies, implies_true, and_true]
  refine ⟨?_, ?_, ?_, ?_, ?_⟩
  · norm_num
  · norm_num
  · norm_num
  · norm_num
  · norm_num

theorem prime_208150935158385979 : Nat.Prime 208150935158385979 := by
  refine prime_of_certificate _ 2 [2, 3, 11, 43, 127, 3023, 191039911] (by decide +kernel) (by decide +kernel) ?_
    (by decide +kernel) (by decide +kernel)
  simp only [List.forall_mem_cons, List.not_mem_nil, false_implies, implies_true, and_true]
  refine ⟨?_, ?_, ?_, ?_, ?_, ?_, ?_⟩
  · norm_num
  · norm_num
  · norm_num
  · norm_num
  · norm_num
  · norm_num
  · exact prime_191039911

theorem prime_2624747550333869278416773953 : Nat.Prime 2624747550333869278416773953 := by
  refine prime_of_certificate _ 7 [2, 2, 2, 2, 2, 2, 3, 3, 1297, 16879, 208150935158385979] (by decide +kernel) (by decide +kernel) ?_
    (by decide +kernel) (by decide +kernel)
  simp only [List.forall_mem_cons, List.not_mem_nil, false_implies, implies_true, and_true]
  refine ⟨?_, ?_, ?_, ?_, ?_, ?_, ?_, ?_, ?_, ?_, ?_⟩
  · norm_num
  · norm_num
  · norm_num
  · norm_num
  · norm_num
  · norm_num
  · norm_num
  · norm_num
  · norm_num
  · norm_num
  · exact prime_208150935158385979

/-- Both moduli are prime (40_field.md R120). -/
theorem curveQ_prime : Nat.Prime curveQ := by
  refine prime_of_certificate _ 7 [2, 2, 2, 2, 3, 71, 131, 373, 3407, 17449, 38189, 187019741, 622491383, 1002328039319, 2624747550333869278416773953] (by decide +kernel) (by decide +kernel) ?_
    (by decide +kernel) (by decide +kernel)
  simp only [List.forall_mem_cons, List.not_mem_nil, false_implies, implies_true, and_true]
  refine ⟨?_, ?_, ?_, ?_, ?_, ?_, ?_, ?_, ?_, ?_, ?_, ?_, ?_, ?_, ?_⟩
  · norm_num
  · norm_num
  · norm_num
  · norm_num
  · norm_num
  · norm_num
  · norm_num
  · norm_num
  · norm_num
  · norm_num
  · norm_num
  · exact prime_187019741
  · exact prime_622491383
  · exact prime_1002328039319
  · exact prime_2624747550333869278416773953

theorem modulusValue_prime (m : Modulus) : Nat.Prime (modulusValue m) := by
  cases m
  · exact curveP_prime
  · exact curveQ_prime

/-- The inverse is an inverse: x · inv_m(x) mod m = 1 for x in [1, m−1] and prime m (00_scope.md R9). -/
theorem mul_invMod {x m : Nat} (hm : m.Prime) (hlt : m < 2 ^ 256) (hx : 0 < x) (hxm : x < m) :
    x * invMod x m % m = 1 := by
  have hp : Fact m.Prime := ⟨hm⟩
  have h2 := hm.two_le
  have hne : (x : ZMod m) ≠ 0 := by
    rw [Ne, ZMod.natCast_eq_zero_iff]
    exact fun h => absurd (Nat.le_of_dvd hx h) (by omega)
  have h : ((x * invMod x m : Nat) : ZMod m) = ((1 : Nat) : ZMod m) := by
    rw [Nat.cast_mul, invMod, powMod_zmod x m (by omega), ← pow_succ', show m - 2 + 1 = m - 1 by omega,
      ZMod.pow_card_sub_one_eq_one hne]
    simp
  rw [ZMod.natCast_eq_natCast_iff'] at h
  rwa [Nat.mod_eq_of_lt (show 1 < m by omega)] at h

/-- The inverse is reduced. -/
theorem invMod_lt (x : Nat) {m : Nat} (hm : 0 < m) (hlt : m < 2 ^ 256) : invMod x m < m :=
  powMod_lt x (by omega) hm

end Sys2Proof.Machine
end

