-- ==== Sys2Proof/Laws/Step.lean ====
section
/-! SUPPORT. What a step and a host access can do, said once, and where the addresses of the window lie. -/

namespace Sys2Proof.Machine

/-! ### Runs -/

/-- A run of one step more starts with the step. -/
theorem run_succ {n : Nat} {s t : State} (h : step s = .next t) :
    Sys2Proof.core.run (n + 1) s = Sys2Proof.core.run n t := by
  simp only [Host.Core.run]
  rw [show Sys2Proof.core.step s = .next t from h]

/-! ### Host accesses -/

/-- A host access is one step. -/
theorem hostStep_eq (a : BusAccess) (s : State) : hostStep a s = .next (s.busAccess a) := rfl

/-- A read changes the answer only (20_memory.md R66). -/
theorem busAccess_read (s : State) (a : Addr) : ∃ r, s.busAccess (.read a) = s.respond r := by
  unfold State.busAccess
  dsimp only
  split_ifs <;> exact ⟨_, rfl⟩

/-- An aligned write of the word at p. -/
theorem hostStep_write {a : Addr} {s : State} {d : BusWord} {p : Place} (hm : misaligned a = false)
    (hp : placeOf a = p) : hostStep (.write a d) s = .next ((s.writePlace d p).respond .writeDone) := by
  rw [hostStep_eq]
  simp only [State.busAccess, hm, hp]
  rfl

/-- An aligned read of the word at p. -/
theorem hostStep_read {a : Addr} {s : State} {p : Place} (hm : misaligned a = false) (hp : placeOf a = p) :
    hostStep (.read a) s = .next (s.respond (.readData (s.readPlace p))) := by
  rw [hostStep_eq]
  simp only [State.busAccess, hm, hp]
  rfl

/-- An aligned address is not misaligned. -/
theorem misaligned_of_aligned {a : Addr} (h : Aligned a) : misaligned a = false := by
  simp only [misaligned, decide_eq_false_iff_not, not_not]
  exact h

/-- While BUSY = 1 a gated write is dropped with OVR set (20_memory.md R68). -/
theorem gated_busy {s t : State} (h : s.busy = true) : s.gated t = s.dropWrite := if_pos h

/-- While idle a gated write happens. -/
theorem gated_idle {s t : State} (h : s.busy = false) : s.gated t = t := if_neg (by simp [h])

/-! ### The window map (20_memory.md R64) -/

/-- An address of the register window. -/
theorem placeOf_reg {a : Addr} (h : InRegWindow a) :
    placeOf a = .reg (BitVec.ofNat 4 ((a.toNat - 0x400) / 32)) (a.toNat % 32 / 4) := by
  unfold InRegWindow at h
  unfold placeOf; dsimp only
  rw [if_neg (by omega), if_neg (by omega), if_neg (by omega), if_neg (by omega), if_pos (by omega)]

/-- An address of the DER buffer window. -/
theorem placeOf_der {a : Addr} (h : InDerWindow a) : placeOf a = .der (a.toNat - 0x800) := by
  unfold InDerWindow at h
  unfold placeOf; dsimp only
  rw [if_neg (by omega), if_neg (by omega), if_neg (by omega), if_neg (by omega), if_neg (by omega), if_neg (by omega)]

/-- An address of the constant ROM. -/
theorem placeOf_rom {a : Addr} (h : InRom a) : placeOf a = .rom ((a.toNat - 0x200) / 32) (a.toNat % 32 / 4) := by
  unfold InRom at h
  unfold placeOf; dsimp only
  rw [if_neg (by omega), if_neg (by omega), if_pos (by omega)]

/-- A reserved address. -/
theorem placeOf_reserved {a : Addr} (h : IsReserved a) : placeOf a = .reserved := by
  unfold IsReserved at h
  unfold placeOf; dsimp only
  rcases h with h | h | h | h | h | h
  · rw [h]; rfl
  · rw [h]; rfl
  · rw [h]; rfl
  · rw [if_neg (by omega), if_pos (by omega)]
  · rw [if_neg (by omega), if_neg (by omega), if_neg (by omega), if_pos (by omega)]
  · rw [if_neg (by omega), if_neg (by omega), if_neg (by omega), if_neg (by omega), if_neg (by omega), if_pos (by omega)]

end Sys2Proof.Machine
end

