-- ==== Sys2Proof/Laws/Words.lean ====
section
/-! SUPPORT. The eight words of a register (20_memory.md R62). -/

namespace Sys2Proof.Machine

/-- Each bit of a register after its word j is replaced. -/
theorem getLsbD_setWordOfReg (v : RegWord) (j : Nat) (hj : j < 8) (d : BusWord) (k : Nat) (hk : k < 256) :
    (setWordOfReg v j d).getLsbD k =
      if 224 - 32 * j ≤ k ∧ k < 256 - 32 * j then d.getLsbD (k - (224 - 32 * j)) else v.getLsbD k := by
  simp only [setWordOfReg, BitVec.getLsbD_or, BitVec.getLsbD_and, BitVec.getLsbD_not, BitVec.getLsbD_shiftLeft,
    BitVec.getLsbD_setWidth, BitVec.getLsbD_allOnes, hk, decide_true, Bool.true_and]
  by_cases h1 : k < 224 - 32 * j
  · simp [h1, show ¬ (224 - 32 * j ≤ k) by omega]
  · by_cases h2 : k < 256 - 32 * j
    · simp [h1, h2, show 224 - 32 * j ≤ k by omega, show k - (224 - 32 * j) < 32 by omega,
        show k - (224 - 32 * j) < 256 by omega]
    · have : d.getLsbD (k - (224 - 32 * j)) = false := BitVec.getLsbD_of_ge _ _ (by omega)
      simp [h1, h2, show ¬ (k - (224 - 32 * j) < 32) by omega, this]

/-- Each bit of word j. -/
theorem getLsbD_wordOfReg (v : RegWord) (j k : Nat) (hk : k < 32) :
    (wordOfReg v j).getLsbD k = v.getLsbD (224 - 32 * j + k) := by
  simp [wordOfReg, hk]

/-- Reading the word just written gives it. -/
theorem wordOfReg_setWordOfReg_same (v : RegWord) (j : Nat) (hj : j < 8) (d : BusWord) :
    wordOfReg (setWordOfReg v j d) j = d := by
  apply BitVec.eq_of_getLsbD_eq
  intro k hk
  rw [getLsbD_wordOfReg _ _ _ hk, getLsbD_setWordOfReg _ _ hj _ _ (by omega)]
  simp [show 224 - 32 * j + k < 256 - 32 * j by omega]

/-- Writing one word leaves the others. -/
theorem wordOfReg_setWordOfReg_other (v : RegWord) (j j' : Nat) (hj : j < 8) (hj' : j' < 8) (h : j' ≠ j) (d : BusWord) :
    wordOfReg (setWordOfReg v j d) j' = wordOfReg v j' := by
  apply BitVec.eq_of_getLsbD_eq
  intro k hk
  rw [getLsbD_wordOfReg _ _ _ hk, getLsbD_wordOfReg _ _ _ hk, getLsbD_setWordOfReg _ _ hj _ _ (by omega)]
  rw [if_neg (by omega)]

end Sys2Proof.Machine
end

