-- ==== Sys2Proof/Tests/Slice0.lean ====
section
/-! SUPPORT. Tests: the well-formedness checks, words written out from the encoding, the spec's own vectors
(95_test_vectors.md), and a witness for the hypotheses of every statement that has some. -/

namespace Sys2Proof.Tests

-- One thread, for its long kernel evaluations one after the other.
set_option Elab.async false

open Machine

/-! ### Helpers -/

/-- The reset state with some operand registers set. -/
def withRegs (l : List (RegIdx × Nat)) : State :=
  l.foldl (fun s x => s.setReg x.1 (BitVec.ofNat 256 x.2)) State.reset

/-- The reset state with bytes at the start of the DER buffer and the slice [ptr, stop). -/
def withBytes (bytes : List Byte) (ptr stop : Offset) : State :=
  { State.reset with
    mem := bytes.zipIdx.map fun x => (Config.derBase + x.2, x.1), derPtr := ptr, derEnd := stop }

/-- Whether an answer is a next state of which p says true. -/
def answers (r : Result) (p : State → Bool) : Bool :=
  match r with
  | .next t => p t
  | _ => false

theorem next_of {r : Result} {p : State → Bool} (h : answers r p = true) : ∃ t, r = .next t ∧ p t = true := by
  cases r with
  | next t => exact ⟨t, rfl, h⟩
  | fault f => cases h
  | refused f => cases h

theorem noError_of {r : Result} (h : answers r (fun t => !t.err) = true) : ∃ t, r = .next t ∧ t.err = false := by
  simpa using next_of h

/-- The command completed without error, wrote v to register i, and set Z and RG. -/
def wrote (i : RegIdx) (v : Nat) (z rg : Bool) (t : State) : Bool :=
  !t.err && decide (t.regNat i = v) && (t.z == z) && (t.rg == rg)

/-- The command raised an error, with cause, detail and position. -/
def reports (c : Cause) (d : Detail) (pos : Nat) (t : State) : Bool :=
  t.err && decide (t.cause = c ∧ t.detail = d ∧ t.errpos.toNat = pos)

/-- The DER result registers. -/
def derOut (t : State) : List Nat :=
  [t.derTag.toNat, t.derLen.toNat, t.derVoff.toNat, t.derNext.toNat, t.derCnt.toNat]

/-- G, 2G, 3G and −G (95_test_vectors.md). -/
def twoGx : Nat := 0x7CF27B188D034F7E8A52380304B51AC3C08969E277F21B35A60B48FC47669978
def twoGy : Nat := 0x07775510DB8ED040293D9AC69F7430DBBA7DADE63CE982299E04B79D227873D1
def threeGx : Nat := 0x5ECBE4D1A6330A44C8F7EF951D4BF165E6C6B721EFADA985FB41661BC6E7FD6C
def threeGy : Nat := 0x8734640C4998FF7E374B06CE1A64A2ECD82AB036384FB83D9A79B127A27D5032
def minusGy : Nat := 0xB01CBD1C01E58065711814B583F061E9D431CCA994CEA1313449BF97C840AE0A

/-- (r0, r1) = G and (r2, r3) = 2G. -/
def points : State := withRegs [(0, baseX), (1, baseY), (2, twoGx), (3, twoGy)]

/-! ### Well-formedness: an ill-formed term for each check -/

theorem test_ldc_reserved_slot : Instr.wellFormed (.ldc 0 7) = false := by decide
theorem test_ldc_last_slot : Instr.wellFormed (.ldc 15 6) = true := by decide
theorem test_padd_odd_rd : Instr.wellFormed (.padd 1 0 2) = false := by decide
theorem test_padd_odd_ra : Instr.wellFormed (.padd 4 15 2) = false := by decide
theorem test_padd_odd_rb : Instr.wellFormed (.padd 4 0 3) = false := by decide
theorem test_pdbl_odd_rd : Instr.wellFormed (.pdbl 15 0) = false := by decide
theorem test_pdbl_odd_ra : Instr.wellFormed (.pdbl 2 1) = false := by decide
theorem test_pmul_odd_rd : Instr.wellFormed (.pmul 15 0 8) = false := by decide
theorem test_pmul_odd_ra : Instr.wellFormed (.pmul 2 3 0) = false := by decide
theorem test_pmul_any_rb : Instr.wellFormed (.pmul 14 14 15) = true := by decide

/-! ### Decoding: each command's word written out from 30_encoding.md R90 and R94 -/

/-- A word from its fields, as R90 lays them out: OPC, RD, RA, RB, RSV, P, M. -/
theorem test_decode_fadd : decode 0b00000001_1111_0000_1000_0000000000_0_1#32 = .ok (.fadd .q 15 0 8) := by decide
theorem test_decode_fsub : decode 0b00000010_0101_0101_0110_0000000000_0_1#32 = .ok (.fsub .q 5 5 6) := by decide
theorem test_decode_fneg : decode 0b00000011_1000_0110_0000_0000000000_0_1#32 = .ok (.fneg .q 8 6) := by decide
theorem test_decode_fmul : decode 0b00000100_0010_0000_0001_0000000000_0_0#32 = .ok (.fmul .p 2 0 1) := by decide
theorem test_decode_mmul : decode 0b00000101_0001_0010_0100_0000000000_0_0#32 = .ok (.mmul .p 1 2 4) := by decide
theorem test_decode_finv : decode 0b00000110_1010_0111_0000_0000000000_0_1#32 = .ok (.finv .q 10 7) := by decide
theorem test_decode_fsqrt : decode 0b00000111_0101_0011_0000_0000000000_1_0#32 = .ok (.fsqrt true 5 3) := by decide
theorem test_decode_fred : decode 0b00001000_1001_1100_0000_0000000000_0_1#32 = .ok (.fred .q 9 12) := by decide
theorem test_decode_bred : decode 0b00001001_0110_0000_0001_0000000000_0_1#32 = .ok (.bred .q 6 0 1) := by decide
theorem test_decode_ldc : decode 0b00001010_1111_0110_0000_0000000000_0_0#32 = .ok (.ldc 15 6) := by decide
theorem test_decode_padd : decode 0b00010000_0100_0000_0010_0000000000_0_0#32 = .ok (.padd 4 0 2) := by decide
theorem test_decode_pdbl : decode 0b00010001_0010_1110_0000_0000000000_0_0#32 = .ok (.pdbl 2 14) := by decide
theorem test_decode_pmul : decode 0b00010010_0010_0000_1011_0000000000_0_0#32 = .ok (.pmul 2 0 11) := by decide
theorem test_decode_dtlv : decode 0b00100000_0000_0000_0000_0000000000_0_0#32 = .ok .dtlv := by decide
theorem test_decode_dint : decode 0b00100001_1010_0000_0000_0000000000_0_0#32 = .ok (.dint 10) := by decide
theorem test_decode_dseq : decode 0b00100010_0000_0000_0000_0000000000_0_0#32 = .ok .dseq := by decide
theorem test_decode_dbit : decode 0b00100011_0000_0000_0000_0000000000_0_0#32 = .ok .dbit := by decide

/-- The same through the host's entry point: EV4, and EV9's word refused. -/
theorem test_table_word : decodeTableWord 32 0x0A030000 = some (.ldc 0 3) ∧ decodeTableWord 32 0 = none := by decide

/-- The illegal words of 95_test_vectors.md, EV9 to EV20, and LDC with K = 7 (FV46), each by its condition. -/
theorem test_illegal_words :
    decode 0x00000000#32 = .error .reservedOpcode ∧ decode 0x01000004#32 = .error .reservedBits ∧
    decode 0x01000002#32 = .error .parityBit ∧ decode 0x03001000#32 = .error .unusedField ∧
    decode 0x10100000#32 = .error .oddPair ∧ decode 0x11002000#32 = .error .unusedField ∧
    decode 0x0B000000#32 = .error .reservedOpcode ∧ decode 0x20100000#32 = .error .unusedField ∧
    decode 0x21A00001#32 = .error .modulusBit ∧ decode 0x12230000#32 = .error .oddPair ∧
    decode 0x120F0000#32 = .error .oddPair ∧ decode 0x12F08000#32 = .error .oddPair ∧
    decode 0x0A270000#32 = .error .constantIndex := by decide

/-! ### One step of each command, from the vectors of 95_test_vectors.md -/

/-- FV1 and FV2. -/
theorem test_fadd_wraps :
    answers (exec (.fadd .p 2 0 1) (withRegs [(0, curveP - 1), (1, 2)])) (wrote 2 1 false false) = true := by
  decide +kernel

/-- FV6: the destination is also the source. -/
theorem test_fadd_in_place : answers (exec (.fadd .p 0 0 0) (withRegs [(0, 3)])) (wrote 0 6 false false) = true := by
  decide +kernel

/-- FV7. -/
theorem test_fsub_wraps :
    answers (exec (.fsub .p 2 0 1) (withRegs [(0, 5), (1, 7)])) (wrote 2 (curveP - 2) false false) = true := by
  decide +kernel

/-- FV10. -/
theorem test_fneg_zero : answers (exec (.fneg .p 2 0) State.reset) (wrote 2 0 true false) = true := by decide +kernel

/-- FV11. -/
theorem test_fneg_one :
    answers (exec (.fneg .q 2 0) (withRegs [(0, 1)])) (wrote 2 (curveQ - 1) false false) = true := by decide +kernel

/-- FV15. -/
theorem test_fmul :
    answers (exec (.fmul .p 2 0 1) (withRegs [(0, 2 ^ 255), (1, 2)]))
      (wrote 2 0x00000000FFFFFFFEFFFFFFFFFFFFFFFFFFFFFFFF000000000000000000000001 false false) = true := by
  decide +kernel

/-- FV19. -/
theorem test_mmul :
    answers (exec (.mmul .q 2 0 1) (withRegs [(0, 1), (1, 1)]))
      (wrote 2 0x60D066334905C1E907F8B6041E607725BADEF3E243566FAFCE1BC8F79C197C79 false false) = true := by
  decide +kernel

/-- FV23. -/
theorem test_finv :
    answers (exec (.finv .q 2 0) (withRegs [(0, 2)]))
      (wrote 2 0x7FFFFFFF800000007FFFFFFFFFFFFFFFDE737D56D38BCF4279DCE5617E3192A9 false false) = true := by
  decide +kernel

/-- FV26. -/
theorem test_finv_zero :
    answers (exec (.finv .p 2 0) State.reset) (reports .divZero .none 0) = true := by decide +kernel

/-- FV29: the parity that the root does not have. -/
theorem test_fsqrt_parity :
    answers (exec (.fsqrt true 2 0) (withRegs [(0, 4)])) (wrote 2 (curveP - 2) false false) = true := by
  decide +kernel

/-- FV32. -/
theorem test_fsqrt_no_root :
    answers (exec (.fsqrt false 2 0) (withRegs [(0, 3)])) (reports .noSqrt .none 0) = true := by decide +kernel

/-- FV37. -/
theorem test_fred :
    answers (exec (.fred .q 2 0) (withRegs [(0, curveP)]))
      (wrote 2 0x000000000000000000000000000000004319055358E8617B0C46353D039CDAAE false false) = true := by
  decide +kernel

/-- FV41: x[ra] is the high half. -/
theorem test_bred :
    answers (exec (.bred .p 2 0 1) (withRegs [(0, 1)]))
      (wrote 2 0x00000000FFFFFFFEFFFFFFFFFFFFFFFFFFFFFFFF000000000000000000000001 false false) = true := by
  decide +kernel

/-- FV45, slot 5. -/
theorem test_ldc : answers (exec (.ldc 2 5) State.reset) (wrote 2 curveQ false false) = true := by decide +kernel

/-- PV3. -/
theorem test_padd :
    answers (exec (.padd 4 0 2) points) (fun t => wrote 4 threeGx false false t && wrote 5 threeGy false false t) =
      true := by decide +kernel

/-- PV6: G and −G. -/
theorem test_padd_inverse :
    answers (exec (.padd 4 0 2) (withRegs [(0, baseX), (1, baseY), (2, baseX), (3, minusGy), (4, 7)]))
      (fun t => wrote 4 0 true false t && wrote 5 0 true false t) = true := by decide +kernel

/-- PV1. -/
theorem test_pdbl :
    answers (exec (.pdbl 2 0) points) (fun t => wrote 2 twoGx false false t && wrote 3 twoGy false false t) =
      true := by decide +kernel

/-- Both coordinates are checked before the curve is (41_point.md R160). -/
theorem test_pdbl_checks :
    answers (exec (.pdbl 2 0) (withRegs [(0, 1), (1, curveP)])) (reports .encoding .none 1) = true := by
  decide +kernel

/-- PV25: a point off the curve. -/
theorem test_pmul_domain :
    answers (exec (.pmul 2 0 8) (withRegs [(0, 1), (1, 1), (8, 4)])) (reports .domain .none 0) = true := by
  decide +kernel

/-- PV18: the scalar q is 0. -/
theorem test_pmul_order :
    answers (exec (.pmul 2 0 8) (withRegs [(0, baseX), (1, baseY), (2, 7), (8, curveQ)]))
      (fun t => wrote 2 0 true false t && wrote 3 0 true false t) = true := by decide +kernel

/-- The ladder for the scalar 3 (PV3's 3G), over its two bits. -/
theorem test_ladder_three :
    (ladderBits 3 2 (.inf, .aff baseX baseY)).1 = .aff threeGx threeGy := by decide +kernel

/-- DV1. -/
theorem test_dtlv :
    answers (exec .dtlv (withBytes [0x04, 0x02, 0xAA, 0xBB, 0xCC] 0 5))
      (fun t => !t.err && !t.z && decide (derOut t = [4, 2, 2, 4, 0])) = true := by decide +kernel

/-- DV5. -/
theorem test_dtlv_length_not_minimal :
    answers (exec .dtlv (withBytes [0x30, 0x81, 0x7F] 0 3)) (reports .format .nonminLen 1) = true := by decide +kernel

/-- DV12. -/
theorem test_dint :
    answers (exec (.dint 2) (withBytes [0x02, 0x02, 0x00, 0x80] 0 4))
      (fun t => wrote 2 0x80 false false t && decide (derOut t = [2, 2, 2, 4, 0])) = true := by decide +kernel

/-- DV15: a negative INTEGER. -/
theorem test_dint_negative :
    answers (exec (.dint 2) (withBytes [0x02, 0x02, 0xFF, 0x80] 0 4)) (wrote 2 0 false true) = true := by
  decide +kernel

/-- DV26: the inner element overruns the sequence end. -/
theorem test_dseq_inner_error :
    answers (exec .dseq (withBytes [0x30, 0x03, 0x02, 0x02, 0x00, 0x00] 0 6)) (reports .format .shortValue 4) =
      true := by decide +kernel

/-- DV27. -/
theorem test_dseq :
    answers (exec .dseq (withBytes [0x30, 0x13, 0x06, 0x07, 0x2A, 0x86, 0x48, 0xCE, 0x3D, 0x02, 0x01, 0x06, 0x08,
      0x2A, 0x86, 0x48, 0xCE, 0x3D, 0x03, 0x01, 0x07] 0 21))
      (fun t => !t.err && !t.z && decide (derOut t = [48, 19, 2, 21, 2])) = true := by decide +kernel

/-- DV28. -/
theorem test_dbit :
    answers (exec .dbit (withBytes [0x03, 0x01, 0x00] 0 3))
      (fun t => !t.err && t.z && decide (derOut t = [3, 0, 3, 3, 0])) = true := by decide +kernel

/-- DV29. -/
theorem test_dbit_unused :
    answers (exec .dbit (withBytes [0x03, 0x02, 0x01, 0x00] 0 4)) (reports .format .badUnused 2) = true := by
  decide +kernel

/-! ### The step and the host window -/

/-- A placed word runs in the very next step: LDC r0, #GX (30_encoding.md R99). -/
theorem test_placed_word :
    answers (step (State.reset.withFetchWord 32 0x0A030000)) (wrote 0 baseX false false) = true := by decide +kernel

/-- A placed illegal word is ILLEGAL at position 0 (EV9). -/
theorem test_placed_illegal_word :
    answers (step (State.reset.withFetchWord 32 0)) (reports .illegal .none 0) = true := by decide +kernel

/-- Word 7 of r15 is its least significant, at 0x5FC (20_memory.md R62, R64). -/
theorem test_register_word :
    answers (hostStep (.write 0x5FC 0xDEADBEEF) State.reset) (fun t => decide (t.regNat 15 = 0xDEADBEEF)) = true := by
  decide +kernel

/-- The first byte of a DER buffer word is its most significant (20_memory.md R62), up to the window's last byte. -/
theorem test_der_word :
    answers (hostStep (.write 0xFFC 0x01020304) State.reset)
      (fun t => decide (t.derByte 2044 = 1 ∧ t.derByte 2047 = 4)) = true := by decide +kernel

/-- After an accepted word, STATUS reads BUSY alone (10_state.md R28). -/
theorem test_status_word :
    answers (hostStep (.read 0x008) (State.reset.accept 0x0A030000))
      (fun t => decide (t.resp = some (.readData 1))) = true := by decide +kernel

/-- The codes of ERRCODE, from the tables of 60_exceptions.md R231 and 42_der.md R191. -/
theorem test_error_codes :
    [Cause.none, .illegal, .encoding, .domain, .divZero, .noSqrt, .format].map Cause.code = [0, 1, 2, 3, 4, 5, 6] ∧
    [Detail.none, .badSlice, .truncHdr, .indefLen, .truncLen, .nonminLen, .shortValue, .wrongTag, .nonminInt, .emptyInt,
      .badUnused].map Detail.code = [0, 1, 2, 3, 4, 5, 6, 7, 8, 9, 10] := by decide

/-- ERRCODE after a FORMAT error: DETAIL in bits 15:8, CAUSE in bits 7:0 (10_state.md R30; DV8, BAD_SLICE). -/
theorem test_errcode_word :
    answers (exec .dtlv (withBytes [] 10 5)) (fun t => decide (t.errcodeWord = 0x00000106)) = true := by decide +kernel

/-! ### Witnesses: the hypotheses of each statement are met, at boundary values of each clause -/

theorem witness_DecodeOfEncode :
    Instr.wellFormed (.ldc 15 6) = true ∧ Instr.wellFormed (.padd 14 14 14) = true ∧
    Instr.wellFormed (.pdbl 14 0) = true ∧ Instr.wellFormed (.pmul 14 0 15) = true ∧
    Instr.wellFormed (.fadd .q 15 15 15) = true := by decide

theorem witness_EncodeOfDecode :
    decode 0x12EEF000#32 = .ok (.pmul 14 14 15) ∧ decode 0x09FFF001#32 = .ok (.bred .q 15 15 15) := by decide

theorem witness_LegalWordsAreTheTableRows :
    (opcodeRows.filter (·.selects 0x0AF60000#32)).map (·.mnemonic) = ["LDC"] ∧
    opcodeRows.filter (·.selects 0x0AF70000#32) = [] := by decide

theorem witness_IllegalWordsRaiseIllegal :
    (State.reset.accept 0).busy = true ∧ (State.reset.accept 0).events = [] ∧
    decode (State.reset.accept 0).cmd = .error .reservedOpcode := by decide

theorem witness_IllegalWordsRaiseIllegal_scheduled :
    (State.reset.withFetchWord 32 0x0A270000).busy = true ∧
    (State.reset.withFetchWord 32 0x0A270000).events.head? = some .engine ∧
    decode (State.reset.withFetchWord 32 0x0A270000).cmd = .error .constantIndex := by decide

theorem witness_StepRunsTheDecodedCommand :
    ((State.reset.withFetchWord 32 0x20000000).events.head? = some .engine ∧
      (State.reset.withFetchWord 32 0x20000000).busy = true ∧
      decode (State.reset.withFetchWord 32 0x20000000).cmd = .ok .dtlv) ∧
    (State.reset.events = [] ∧ State.reset.busy = false) := by decide

theorem witness_AcceptedWordRunsNext : decode 0x12208000#32 = .ok (.pmul 2 0 8) ∧ State.reset.busy = false := by
  decide

/-- An error without a detail, and one with a detail (the empty slice). -/
theorem witness_ErrorsArePrecise :
    (∃ t, exec (.finv .q 2 0) State.reset = .next t ∧ t.err = true) ∧
    ∃ t, exec .dtlv State.reset = .next t ∧ t.err = true :=
  ⟨next_of (p := (·.err)) (by decide +kernel), next_of (p := (·.err)) (by decide +kernel)⟩

theorem witness_CommandsWriteOnlyTheirDestination :
    (∃ t, exec (.fadd .p 2 0 1) State.reset = .next t ∧ t.err = false) ∧ (3 : RegIdx) ∉ (Instr.fadd .p 2 0 1).dests ∧
    (∀ rd, Instr.fadd .p 2 0 1 ∉ derCommands rd) ∧ Instr.fadd .p 2 0 1 ≠ .dseq :=
  ⟨noError_of (by decide +kernel),
    by decide, by decide, by decide⟩

theorem witness_CommandsReadOnlyTheirSources :
    withRegs [(9, 5)] = { State.reset with regs := (withRegs [(9, 5)]).regs } ∧
    ∀ j ∈ (Instr.padd 4 0 2).sources, (withRegs [(9, 5)]).reg j = State.reset.reg j := by decide +kernel

/-- An operand at the modulus in either place, with the largest allowed one before it. -/
theorem witness_FieldOperandsAreCheckedInOrder :
    (∀ m, modulusValue m ≤ (withRegs [(0, modulusValue m)]).regNat 0) ∧
    (∀ m, (withRegs [(0, modulusValue m - 1), (1, modulusValue m)]).regNat 0 < modulusValue m ∧
      modulusValue m ≤ (withRegs [(0, modulusValue m - 1), (1, modulusValue m)]).regNat 1) ∧
    curveP ≤ (withRegs [(0, curveP)]).regNat 0 := by
  refine ⟨fun m => ?_, fun m => ?_, by decide +kernel⟩ <;> cases m <;> decide +kernel

theorem witness_SumsAndDifferences (m : Modulus) :
    (withRegs [(0, modulusValue m - 1), (1, modulusValue m - 1)]).regNat 0 < modulusValue m ∧
    (withRegs [(0, modulusValue m - 1), (1, modulusValue m - 1)]).regNat 1 < modulusValue m := by
  cases m <;> decide +kernel

theorem witness_Products (m : Modulus) :
    State.reset.regNat 0 < modulusValue m ∧ (withRegs [(1, modulusValue m - 1)]).regNat 1 < modulusValue m := by
  cases m <;> decide +kernel

/-- The smallest and the largest element with an inverse, and 0. -/
theorem witness_FinvWritesTheInverse (m : Modulus) :
    (0 < (withRegs [(0, 1)]).regNat 0 ∧ (withRegs [(0, 1)]).regNat 0 < modulusValue m) ∧
    (0 < (withRegs [(0, modulusValue m - 1)]).regNat 0 ∧
      (withRegs [(0, modulusValue m - 1)]).regNat 0 < modulusValue m) ∧
    State.reset.regNat 0 = 0 := by
  cases m <;> decide +kernel

/-- The squares 0 and 1, and p − 1, which is none because p mod 4 = 3. -/
theorem witness_FsqrtWritesTheRoot :
    (∃ y, y * y ≡ State.reset.regNat 0 [MOD curveP]) ∧ (∃ y, y * y ≡ (withRegs [(0, 1)]).regNat 0 [MOD curveP]) ∧
    (withRegs [(0, curveP - 1)]).regNat 0 < curveP ∧
    ¬ ∃ y, y * y ≡ (withRegs [(0, curveP - 1)]).regNat 0 [MOD curveP] := by
  refine ⟨⟨0, by decide +kernel⟩, ⟨1, by decide +kernel⟩, by decide +kernel, ?_⟩
  rintro ⟨y, hy⟩
  rw [show (withRegs [(0, curveP - 1)]).regNat 0 = curveP - 1 by decide +kernel] at hy
  have : Fact curveP.Prime := ⟨curveP_prime⟩
  have h := (ZMod.natCast_eq_natCast_iff (y * y) (curveP - 1) curveP).2 hy
  rw [Nat.cast_sub (by decide)] at h
  have hs : IsSquare (-1 : ZMod curveP) := ⟨(y : ZMod curveP), by push_cast at h; simpa using h.symm⟩
  exact ZMod.exists_sq_eq_neg_one_iff.1 hs (by decide)

theorem witness_LdcLoadsTheConstant :
    [curveP, curveA, curveB, baseX, baseY, curveQ, 1][(0 : RegIdx).toNat]? = some curveP ∧
    [curveP, curveA, curveB, baseX, baseY, curveQ, 1][(6 : RegIdx).toNat]? = some 1 := ⟨rfl, rfl⟩

theorem witness_FieldResultsAreReduced :
    (∃ t, exec (.fadd .q 2 0 1) State.reset = .next t ∧ t.err = false) ∧
    (∃ t, exec (.fsqrt true 2 0) State.reset = .next t ∧ t.err = false) ∧
    ∃ t, exec (.ldc 2 6) State.reset = .next t ∧ t.err = false :=
  ⟨noError_of (by decide +kernel),
    noError_of (by decide +kernel),
    noError_of (by decide +kernel)⟩

theorem witness_FieldFlags :
    (6 : RegIdx).toNat ≤ 6 ∧ (∃ t, exec (.ldc 15 6) State.reset = .next t ∧ t.err = false) ∧
    ∃ t, exec (.finv .p 2 0) State.reset = .next t ∧ t.err = true :=
  ⟨by decide, noError_of (by decide +kernel),
    next_of (p := (·.err)) (by decide +kernel)⟩

/-- The last coordinate at p after three allowed ones, a point off the curve in either place, and two good points. -/
theorem witness_PointOperandsAreCheckedInOrder :
    (∀ j ∈ [(0 : RegIdx), 1, 2], (withRegs [(3, curveP)]).regNat j < curveP) ∧
    curveP ≤ (withRegs [(3, curveP)]).regNat 3 ∧
    ¬ PairOnCurve (withRegs [(0, 1), (1, 1)]) 0 ∧
    (PairOnCurve (withRegs [(2, 1), (3, 1)]) 0 ∧ ¬ PairOnCurve (withRegs [(2, 1), (3, 1)]) 2) ∧
    (PairOnCurve points 0 ∧ PairOnCurve points 2) ∧
    (curveP ≤ (withRegs [(1, curveP)]).regNat 1 ∧ (withRegs [(1, curveP)]).regNat 0 < curveP) := by
  unfold PairOnCurve OnCurve
  decide +kernel

theorem witness_PaddWritesTheSum : PairOnCurve points 0 ∧ PairOnCurve points 2 ∧ PairOnCurve points 8 := by
  unfold PairOnCurve OnCurve
  decide +kernel

theorem witness_PdblWritesTheDouble : PairOnCurve points 0 ∧ PairOnCurve State.reset 0 := by
  unfold PairOnCurve OnCurve
  decide +kernel

theorem witness_PmulWritesTheMultiple : PairOnCurve points 2 ∧ PairOnCurve State.reset 14 := by
  unfold PairOnCurve OnCurve
  decide +kernel

/-- The scalars 0 and q, and the point at infinity. -/
theorem witness_ScalarIsReducedFirst :
    (withRegs [(9, curveQ)]).regNat 8 ≡ (withRegs [(9, curveQ)]).regNat 9 [MOD curveQ] ∧
    PairOnCurve points 0 ∧ points.regNat 8 ≡ 0 [MOD curveQ] ∧
    PairOnCurve State.reset 0 ∧ pairPoint State.reset 0 = .inf := by
  unfold PairOnCurve OnCurve
  decide +kernel

theorem witness_PointResultsAreOnTheCurve :
    (∃ t, exec (.padd 4 0 2) points = .next t ∧ t.err = false) ∧
    ∃ t, exec (.pmul 2 0 8) points = .next t ∧ t.err = false :=
  ⟨noError_of (by decide +kernel),
    noError_of (by decide +kernel)⟩

theorem witness_PointFlags : ∃ t, exec (.pdbl 2 0) points = .next t ∧ t.err = false := noError_of (by decide +kernel)

theorem witness_PaddGroupLaws :
    (PairOnCurve points 0 ∧ PairOnCurve points 2) ∧ (PairOnCurve points 8 ∧ pairPoint points 8 = .inf) ∧
    (PairOnCurve (withRegs [(0, baseX), (1, baseY), (2, baseX), (3, minusGy)]) 2 ∧
      (withRegs [(0, baseX), (1, baseY), (2, baseX), (3, minusGy)]).regNat 0 =
        (withRegs [(0, baseX), (1, baseY), (2, baseX), (3, minusGy)]).regNat 2 ∧
      (withRegs [(0, baseX), (1, baseY), (2, baseX), (3, minusGy)]).regNat 3 =
        (curveP - (withRegs [(0, baseX), (1, baseY), (2, baseX), (3, minusGy)]).regNat 1) % curveP) := by
  unfold PairOnCurve OnCurve
  decide +kernel

/-- DER_PTR one above DER_END, and DER_END one above the buffer. -/
theorem witness_SliceIsCheckedFirst : ¬ SliceOk (withBytes [] 1 0) ∧ ¬ SliceOk (withBytes [] 0 2049) := by
  unfold SliceOk
  decide

/-- A header error of every kind, on the shortest slice that shows it. -/
theorem witness_HeaderErrorsComeNext :
    SliceOk (withBytes [] 2048 2048) ∧
    IsHeaderError (withBytes [] 2048 2048).derByte 2048 2048 .truncHdr 2048 ∧
    IsHeaderError (withBytes [0x02, 0x01] 0 2).derByte 0 2 .shortValue 2 ∧
    IsHeaderError (withBytes [0x30, 0x80] 0 2).derByte 0 2 .indefLen 1 ∧
    IsHeaderError (withBytes [0x30, 0x81] 0 2).derByte 0 2 .truncLen 1 ∧
    IsHeaderError (withBytes [0x30, 0x81, 0x7F] 0 3).derByte 0 3 .nonminLen 1 ∧
    IsHeaderError (withBytes [0x30, 0x82, 0x00, 0x80] 0 4).derByte 0 4 .nonminLen 1 ∧
    IsHeaderError (withBytes [0x30, 0x81, 0x80] 0 3).derByte 0 3 .shortValue 3 := by
  simp only [← tlv_error_iff]
  unfold SliceOk
  refine ⟨by decide, ?_, ?_, ?_, ?_, ?_, ?_, ?_⟩ <;> rfl

/-- A slice's element, from what tlv answers. -/
theorem sliceElement_of {s : State} {t : Tlv} (hs : SliceOk s)
    (h : tlv s.derByte s.derPtr.toNat s.derEnd.toNat = .ok t) :
    SliceElement s t := ⟨hs, (tlv_ok_iff _ _ _ _).1 h⟩

/-- An empty value, the longest short form, and the shortest long form. -/
theorem witness_DtlvWritesTheElement :
    SliceElement (withBytes [0x05, 0x00] 0 2) ⟨0x05, 0, 2, 2⟩ ∧
    SliceElement (withBytes [0x04, 0x7F] 0 129) ⟨0x04, 127, 2, 129⟩ ∧
    SliceElement (withBytes [0x30, 0x81, 0x80] 0 131) ⟨0x30, 128, 3, 131⟩ := by
  refine ⟨sliceElement_of ?_ rfl, sliceElement_of ?_ rfl, sliceElement_of ?_ rfl⟩ <;> unfold SliceOk <;> decide

theorem witness_DtlvWritesTheElement_converse :
    ∃ u, exec .dtlv (withBytes [0x05, 0x00] 0 2) = .next u ∧ u.err = false := noError_of (by decide +kernel)

theorem witness_WrongTagsAreRejected :
    SliceElement (withBytes [0x05, 0x00] 0 2) ⟨0x05, 0, 2, 2⟩ ∧ (0x05#8 ≠ 0x02#8) ∧ (0x05#8 ≠ 0x30#8) ∧
    0x05#8 ≠ 0x03#8 :=
  ⟨witness_DtlvWritesTheElement.1, by decide, by decide, by decide⟩

/-- The INTEGER −1, the largest value a register holds, and 2^256. -/
theorem witness_DintWritesTheInteger :
    (SliceElement (withBytes [0x02, 0x01, 0xFF] 0 3) ⟨0x02, 1, 2, 3⟩ ∧
      ¬ LeadingZero (withBytes [0x02, 0x01, 0xFF] 0 3).derByte 2 1 ∧
      IsSignedValue (withBytes [0x02, 0x01, 0xFF] 0 3).derByte 2 1 (-1)) ∧
    (SliceElement (withBytes ([0x02, 0x21, 0x00] ++ List.replicate 32 0xFF) 0 35) ⟨0x02, 33, 2, 35⟩ ∧
      ¬ LeadingZero (withBytes ([0x02, 0x21, 0x00] ++ List.replicate 32 0xFF) 0 35).derByte 2 33 ∧
      IsSignedValue (withBytes ([0x02, 0x21, 0x00] ++ List.replicate 32 0xFF) 0 35).derByte 2 33 (2 ^ 256 - 1)) ∧
    (SliceElement (withBytes ([0x02, 0x21, 0x01] ++ List.replicate 32 0x00) 0 35) ⟨0x02, 33, 2, 35⟩ ∧
      ¬ LeadingZero (withBytes ([0x02, 0x21, 0x01] ++ List.replicate 32 0x00) 0 35).derByte 2 33 ∧
      IsSignedValue (withBytes ([0x02, 0x21, 0x01] ++ List.replicate 32 0x00) 0 35).derByte 2 33 (2 ^ 256)) := by
  simp only [IsSignedValue, LeadingZero, ← beValue_eq]
  refine ⟨⟨sliceElement_of ?_ rfl, ?_⟩, ⟨sliceElement_of ?_ rfl, ?_⟩, sliceElement_of ?_ rfl, ?_⟩ <;>
    (try unfold SliceOk) <;> decide +kernel

theorem witness_DintRejectsBadIntegers :
    SliceElement (withBytes [0x02, 0x00] 0 2) ⟨0x02, 0, 2, 2⟩ ∧
    SliceElement (withBytes [0x02, 0x02, 0x00, 0x7F] 0 4) ⟨0x02, 2, 2, 4⟩ ∧
    LeadingZero (withBytes [0x02, 0x02, 0x00, 0x7F] 0 4).derByte 2 2 := by
  refine ⟨sliceElement_of ?_ rfl, sliceElement_of ?_ rfl, ?_⟩ <;> (try unfold SliceOk) <;> (try unfold LeadingZero) <;>
    decide +kernel

/-- No element, one element, and an error in the first element. -/
theorem witness_DseqCountsTheElements :
    (SliceElement (withBytes [0x30, 0x00] 0 2) ⟨0x30, 0, 2, 2⟩ ∧
      IsWalk (withBytes [0x30, 0x00] 0 2).derByte (2 + 0) 2 (2 + 0) 0) ∧
    (SliceElement (withBytes [0x30, 0x02, 0x05, 0x00] 0 4) ⟨0x30, 2, 2, 4⟩ ∧
      IsWalk (withBytes [0x30, 0x02, 0x05, 0x00] 0 4).derByte (2 + 2) 2 (2 + 2) 1) ∧
    (SliceElement (withBytes [0x30, 0x01, 0x05] 0 3) ⟨0x30, 1, 2, 3⟩ ∧
      IsWalk (withBytes [0x30, 0x01, 0x05] 0 3).derByte (2 + 1) 2 2 0 ∧ 2 < 2 + 1 ∧
      IsHeaderError (withBytes [0x30, 0x01, 0x05] 0 3).derByte 2 (2 + 1) .truncHdr 2) ∧
    ∃ u, exec .dseq (withBytes [0x30, 0x02, 0x05, 0x00] 0 4) = .next u ∧ u.err = false := by
  refine ⟨⟨sliceElement_of ?_ rfl, .start _⟩, ⟨sliceElement_of ?_ rfl, ?_⟩,
    ⟨sliceElement_of ?_ rfl, .start _, by decide, (tlv_error_iff _ _ _ _ _).1 rfl⟩, ?_⟩
  · unfold SliceOk; decide
  · unfold SliceOk; decide
  · exact .more (t := ⟨0x05, 0, 4, 4⟩) (.start _) ((tlv_ok_iff _ _ _ _).1 rfl)
  · unfold SliceOk; decide
  · exact noError_of (by decide +kernel)

theorem witness_DbitWritesTheOctets :
    (SliceElement (withBytes [0x03, 0x01, 0x00] 0 3) ⟨0x03, 1, 2, 3⟩ ∧
      (withBytes [0x03, 0x01, 0x00] 0 3).derByte 2 = 0) ∧
    SliceElement (withBytes [0x03, 0x00] 0 2) ⟨0x03, 0, 2, 2⟩ ∧
    (SliceElement (withBytes [0x03, 0x01, 0x01] 0 3) ⟨0x03, 1, 2, 3⟩ ∧
      (withBytes [0x03, 0x01, 0x01] 0 3).derByte 2 ≠ 0) := by
  refine ⟨⟨sliceElement_of ?_ rfl, ?_⟩, sliceElement_of ?_ rfl, sliceElement_of ?_ rfl, ?_⟩ <;>
    (try unfold SliceOk) <;> decide +kernel

/-- An empty value, and the INTEGERs 0, −1 and 2^256. -/
theorem witness_DerFlags :
    (∃ t, exec .dtlv (withBytes [0x05, 0x00] 0 2) = .next t ∧ t.err = false) ∧
    ((∃ t, exec (.dint 2) (withBytes [0x02, 0x01, 0x00] 0 3) = .next t ∧ t.err = false) ∧
      SliceElement (withBytes [0x02, 0x01, 0x00] 0 3) ⟨0x02, 1, 2, 3⟩ ∧
      IsSignedValue (withBytes [0x02, 0x01, 0x00] 0 3).derByte 2 1 0) ∧
    ((∃ t, exec (.dint 2) (withBytes [0x02, 0x01, 0xFF] 0 3) = .next t ∧ t.err = false) ∧
      SliceElement (withBytes [0x02, 0x01, 0xFF] 0 3) ⟨0x02, 1, 2, 3⟩ ∧
      IsSignedValue (withBytes [0x02, 0x01, 0xFF] 0 3).derByte 2 1 (-1)) ∧
    ((∃ t, exec (.dint 2) (withBytes ([0x02, 0x21, 0x01] ++ List.replicate 32 0x00) 0 35) = .next t ∧ t.err = false) ∧
      SliceElement (withBytes ([0x02, 0x21, 0x01] ++ List.replicate 32 0x00) 0 35) ⟨0x02, 33, 2, 35⟩ ∧
      IsSignedValue (withBytes ([0x02, 0x21, 0x01] ++ List.replicate 32 0x00) 0 35).derByte 2 33 (2 ^ 256)) := by
  refine ⟨witness_DtlvWritesTheElement_converse,
    ⟨noError_of (by decide +kernel), sliceElement_of (by unfold SliceOk; decide) rfl, ?_⟩,
    ⟨noError_of (by decide +kernel), witness_DintWritesTheInteger.1.1, witness_DintWritesTheInteger.1.2.2⟩,
    ⟨noError_of (by decide +kernel), witness_DintWritesTheInteger.2.2.1, witness_DintWritesTheInteger.2.2.2.2⟩⟩
  simp only [IsSignedValue, ← beValue_eq]
  decide +kernel

/-- Two buffers that differ just after the slice. -/
theorem witness_DerCommandsReadOnlyTheirSlice :
    withBytes [0x05, 0x00, 0x01] 0 2 =
      { withBytes [0x05, 0x00] 0 2 with mem := (withBytes [0x05, 0x00, 0x01] 0 2).mem } ∧
    ∀ a, 0 ≤ a → a < 2 →
      (withBytes [0x05, 0x00, 0x01] 0 2).derByte a = (withBytes [0x05, 0x00] 0 2).derByte a := by
  refine ⟨rfl, fun a _ h => ?_⟩
  interval_cases a <;> rfl

theorem witness_CommandAcceptance : State.reset.busy = false ∧ (State.reset.accept 0).busy = true := by decide

theorem witness_MisalignedAccessIsABusError :
    (0x001 : Addr).extractLsb' 0 2 ≠ 0 ∧ (0x00E : Addr).extractLsb' 0 2 ≠ 0 ∧ (0xFFF : Addr).extractLsb' 0 2 ≠ 0 := by
  decide

/-- The first and the last word of each range of the table. -/
theorem witness_BusyGatesTheWindow :
    (State.reset.accept 0).busy = true ∧ (Aligned 0x400 ∧ InRegWindow 0x400) ∧ (Aligned 0x5FC ∧ InRegWindow 0x5FC) ∧
    (Aligned 0x800 ∧ IsGated 0x800) ∧ (Aligned 0xFFC ∧ IsGated 0xFFC) ∧
    IsGated 0x020 ∧ IsGated 0x024 ∧ IsGated 0x00C ∧
    (Aligned 0x3FC ∧ ¬ InRegWindow 0x3FC) ∧ (Aligned 0x600 ∧ ¬ InRegWindow 0x600) ∧
    IsReadOnly 0x000 ∧ IsReadOnly 0x038 ∧
    InRom 0x200 ∧ InRom 0x2FC ∧ IsReserved 0x018 ∧ IsReserved 0x7FC := by
  unfold IsGated Aligned InRegWindow InDerWindow IsReadOnly InRom IsReserved
  and_intros <;> decide

theorem witness_BusyGatesTheWindow_control : (1 : BusWord).getLsbD 1 = false ∧ (2 : BusWord).getLsbD 1 = true := by
  decide

theorem witness_ReadsAndRepeatedWritesChangeNothing :
    State.reset.mem.wf = true ∧ (0x800 : Addr) ≠ 0x00C ∧ ∃ t, hostStep (.write 0x800 7) State.reset = .next t :=
  ⟨rfl, by decide, _, rfl⟩

/-- The first and the last word of each reserved range, and constant slot 7. -/
theorem witness_ReservedOffsetsReadZero :
    (∀ a ∈ [(0x018 : Addr), 0x01C, 0x03C, 0x040, 0x1FC, 0x300, 0x3FC, 0x600, 0x7FC], Aligned a ∧ IsReserved a) ∧
    (Aligned 0x2E0 ∧ 0x2E0 ≤ (0x2E0 : Addr).toNat) ∧
    (Aligned 0x2FC ∧ (0x2FC : Addr).toNat < 0x300 ∧ InRom 0x2FC) := by
  unfold Aligned IsReserved InRom
  refine ⟨fun a h => ?_, by decide, by decide⟩
  simp only [List.mem_cons, List.not_mem_nil, or_false] at h
  rcases h with rfl | rfl | rfl | rfl | rfl | rfl | rfl | rfl | rfl <;> simp

theorem witness_RegisterWordsAreBigEndian :
    State.reset.busy = false ∧ (0x400 : Addr).toNat = 0x400 + 32 * (0 : RegIdx).toNat + 4 * 0 ∧
    (0x5FC : Addr).toNat = 0x400 + 32 * (15 : RegIdx).toNat + 4 * 7 := by decide

theorem witness_DerBufferWordsAreBigEndian :
    State.reset.busy = false ∧ (0x800 : Addr).toNat = 0x800 + 4 * 0 ∧
    (0xFFC : Addr).toNat = 0x800 + 4 * 511 := by decide

theorem witness_IdAndConstantsReadBack :
    (0x200 : Addr).toNat = 0x200 + 32 * 0 + 4 * 0 ∧ (0x2DC : Addr).toNat = 0x200 + 32 * 6 + 4 * 7 ∧
    [curveP, curveA, curveB, baseX, baseY, curveQ, 1][6]? = some 1 ∧ ∃ t, step State.reset = .next t :=
  ⟨by decide, by decide, rfl, _, rfl⟩

theorem witness_ControlRegistersReadAsTheirFields : State.reset.busy = false := rfl

theorem witness_CtrlReadsAndWrites : (1 : BusWord).getLsbD 1 = false ∧ (3 : BusWord).getLsbD 1 = true := by decide

theorem witness_SoftResetClearsAllButTheBuffer : (2 : BusWord).getLsbD 1 = true := by decide

/-- Each event of the interrupt statement can happen. -/
theorem witness_InterruptFollowsDone :
    (∃ t, exec (.ldc 0 6) State.reset = .next t) ∧
    ((1 : BusWord).getLsbD 1 = false ∧ ∃ t, hostStep (.write 0x004 1) State.reset = .next t) ∧
    ((2 : BusWord).getLsbD 1 = true ∧ ∃ t, hostStep (.write 0x008 2) State.reset = .next t) ∧
    (State.reset.busy = false ∧ ∃ t, hostStep (.write 0x00C 2) State.reset = .next t) ∧
    (∃ t, hostStep (.write 0x004 2) State.reset = .next t) ∧
    ∃ t, step { State.reset with events := [.hardReset] } = .next t :=
  ⟨⟨_, rfl⟩, ⟨by decide, _, rfl⟩, ⟨by decide, _, rfl⟩, ⟨rfl, _, rfl⟩, ⟨_, rfl⟩, _, rfl⟩

/-- OVR rises at a dropped write, and falls at a 1 written to STATUS bit 5. -/
theorem witness_OvrIsSticky :
    (∃ t, step { State.reset.accept 0 with events := [.bus (.write 0x00C 1)] } = .next t ∧ t.ovr = true) ∧
    ∃ t, step { State.reset.dropWrite with events := [.bus (.write 0x008 0x20)] } = .next t ∧ t.ovr = false :=
  ⟨⟨_, rfl, rfl⟩, _, rfl, rfl⟩

/-- A host that starts a command and polls STATUS, the engine's turn, and a register read after completion. -/
def polling : State :=
  { State.reset with events := [.bus (.write 0x00C 0), .bus (.read 0x008), .engine, .bus (.read 0x400)] }

theorem witness_WaitingHostNeverSetsOvr :
    polling.ovr = false ∧ ObeysFor 4 polling ∧ ∃ t, Sys2Proof.core.run 4 polling = .next t := by
  refine ⟨rfl, ⟨?_, fun t ht => ?_⟩, _, rfl⟩
  · intro a rest _ hb
    cases hb
  cases ht
  refine ⟨?_, fun t ht => ?_⟩
  · intro a rest h _
    cases h
    unfold MustWait InRegWindow
    decide
  cases ht
  refine ⟨?_, fun t ht => ?_⟩
  · intro a rest h
    cases h
  cases ht
  refine ⟨?_, fun t ht => trivial⟩
  intro a rest _ hb
  cases hb

theorem witness_OperandsAreStableWhileBusy :
    (State.reset.accept 0).busy = true ∧ (∃ t, hostStep (.write 0x400 7) (State.reset.accept 0) = .next t) ∧
    ∀ d : BusWord, BusAccess.write 0x400 7 = .write 0x004 d → d.getLsbD 1 = false :=
  ⟨rfl, ⟨_, rfl⟩, fun _ h => by simp at h⟩

theorem witness_RegistersAreHiddenWhileBusy :
    (State.reset.accept 0).busy = true ∧
    (withRegs [(9, 5)]).accept 0 = { State.reset.accept 0 with regs := ((withRegs [(9, 5)]).accept 0).regs } := by
  decide +kernel

/-- A state with the invariant that is not the reset state: a command in flight, from which a step goes on. -/
theorem witness_EveryStepKeepsTheInvariant :
    Inv (withBytes [0x05, 0x00] 0 2) ∧ ∃ t, step (withBytes [0x05, 0x00] 0 2) = .next t := by
  refine ⟨?_, _, rfl⟩
  constructor <;> decide

end Sys2Proof.Tests
end

/-! Each format's checker answers a command exactly when the format's conditions hold (30_encoding.md R91), and a decoded
command is well-formed. -/

namespace Sys2Proof

theorem decodeFR3_ok_iff {mk : Modulus → RegIdx → RegIdx → RegIdx → Instr} {w : BusWord} {i : Instr} :
    decodeFR3 mk w = .ok i ↔
      parityField w = false ∧ mk (modulusField w) (rdField w) (raField w) (rbField w) = i := by
  unfold decodeFR3; split_ifs <;> simp_all

theorem decodeFR2_ok_iff {mk : Modulus → RegIdx → RegIdx → Instr} {w : BusWord} {i : Instr} :
    decodeFR2 mk w = .ok i ↔
      rbField w = 0 ∧ parityField w = false ∧ mk (modulusField w) (rdField w) (raField w) = i := by
  unfold decodeFR2; split_ifs <;> simp_all

theorem decodeFSQ_ok_iff {mk : Bool → RegIdx → RegIdx → Instr} {w : BusWord} {i : Instr} :
    decodeFSQ mk w = .ok i ↔
      rbField w = 0 ∧ modulusBit w = false ∧ mk (parityField w) (rdField w) (raField w) = i := by
  unfold decodeFSQ; split_ifs <;> simp_all

theorem decodeFK_ok_iff {mk : RegIdx → RegIdx → Instr} {w : BusWord} {i : Instr} :
    decodeFK mk w = .ok i ↔
      rbField w = 0 ∧ parityField w = false ∧ modulusBit w = false ∧ RegIdx.isSlot (raField w) = true ∧
        mk (rdField w) (raField w) = i := by
  unfold decodeFK; split_ifs <;> simp_all

theorem decodePR3_ok_iff {mk : RegIdx → RegIdx → RegIdx → Instr} {w : BusWord} {i : Instr} :
    decodePR3 mk w = .ok i ↔
      parityField w = false ∧ modulusBit w = false ∧
        (RegIdx.isEven (rdField w) && RegIdx.isEven (raField w) && RegIdx.isEven (rbField w)) = true ∧
        mk (rdField w) (raField w) (rbField w) = i := by
  unfold decodePR3; split_ifs <;> simp_all

theorem decodePR2_ok_iff {mk : RegIdx → RegIdx → Instr} {w : BusWord} {i : Instr} :
    decodePR2 mk w = .ok i ↔
      rbField w = 0 ∧ parityField w = false ∧ modulusBit w = false ∧
        (RegIdx.isEven (rdField w) && RegIdx.isEven (raField w)) = true ∧ mk (rdField w) (raField w) = i := by
  unfold decodePR2; split_ifs <;> simp_all

theorem decodePRS_ok_iff {mk : RegIdx → RegIdx → RegIdx → Instr} {w : BusWord} {i : Instr} :
    decodePRS mk w = .ok i ↔
      parityField w = false ∧ modulusBit w = false ∧
        (RegIdx.isEven (rdField w) && RegIdx.isEven (raField w)) = true ∧
        mk (rdField w) (raField w) (rbField w) = i := by
  unfold decodePRS; split_ifs <;> simp_all

theorem decodeD1_ok_iff {mk : RegIdx → Instr} {w : BusWord} {i : Instr} :
    decodeD1 mk w = .ok i ↔
      raField w = 0 ∧ rbField w = 0 ∧ parityField w = false ∧ modulusBit w = false ∧ mk (rdField w) = i := by
  unfold decodeD1; split_ifs <;> grind

theorem decodeD0_ok_iff {c : Instr} {w : BusWord} {i : Instr} :
    decodeD0 c w = .ok i ↔
      rdField w = 0 ∧ raField w = 0 ∧ rbField w = 0 ∧ parityField w = false ∧ modulusBit w = false ∧ c = i := by
  unfold decodeD0; split_ifs <;> simp_all [decodeD1_ok_iff]

theorem decode_ok_iff {w : BusWord} {i : Instr} :
    decode w = .ok i ↔ rsvField w = 0 ∧ decodeOpcode w = .ok i := by
  unfold decode; split_ifs <;> simp_all

/-- The checks of LDC's, PADD's, PDBL's and PMUL's formats are the well-formedness of the command they answer; the other
formats answer commands that are always well-formed (30_encoding.md R95, conditions 6 and 7). -/
theorem wellFormed_of_decodeOpcode {w : BusWord} {i : Instr} (h : decodeOpcode w = .ok i) : i.wellFormed = true := by
  unfold decodeOpcode at h
  split at h
  case h_1 | h_2 | h_4 | h_5 | h_9 => obtain ⟨_, rfl⟩ := decodeFR3_ok_iff.mp h; rfl
  case h_3 | h_6 | h_8 => obtain ⟨_, _, rfl⟩ := decodeFR2_ok_iff.mp h; rfl
  case h_7 => obtain ⟨_, _, rfl⟩ := decodeFSQ_ok_iff.mp h; rfl
  case h_10 => obtain ⟨_, _, _, hslot, rfl⟩ := decodeFK_ok_iff.mp h; exact hslot
  case h_11 => obtain ⟨_, _, heven, rfl⟩ := decodePR3_ok_iff.mp h; exact heven
  case h_12 => obtain ⟨_, _, _, heven, rfl⟩ := decodePR2_ok_iff.mp h; exact heven
  case h_13 => obtain ⟨_, _, heven, rfl⟩ := decodePRS_ok_iff.mp h; exact heven
  case h_14 | h_16 | h_17 => obtain ⟨_, _, _, _, _, rfl⟩ := decodeD0_ok_iff.mp h; rfl
  case h_15 => obtain ⟨_, _, _, _, rfl⟩ := decodeD1_ok_iff.mp h; rfl
  case h_18 => cases h

/-- A decoded command is well-formed. -/
theorem wellFormed_of_decode {w : BusWord} {i : Instr} (h : decode w = .ok i) : i.wellFormed = true :=
  wellFormed_of_decodeOpcode (decode_ok_iff.mp h).2

end Sys2Proof

/-! When the engine has its turn, and what the turn does. -/

namespace Sys2Proof.Machine

theorem runCommand_legal {s : State} {i : Instr} (h : decode s.cmd = .ok i) : runCommand s = exec i s := by
  simp [runCommand, h]

theorem runCommand_illegal {s : State} {e : Illegal} (h : decode s.cmd = .error e) :
    runCommand s = raised s .illegal .none 0 := by
  simp [runCommand, h]

theorem engineTurn_busy {s : State} (h : s.busy = true) : engineTurn s = runCommand s := if_pos h

theorem engineTurn_idle {s : State} (h : s.busy = false) : engineTurn s = .next s := if_neg (by simp [h])

/-- With no event left the engine has its turn. -/
theorem step_of_no_events {s : State} (h : s.events = []) : step s = engineTurn s := by
  simp [step, h]

/-- The first scheduled event happens and leaves the schedule. -/
theorem step_of_event {s : State} {e : Event} {rest : List Event} (h : s.events = e :: rest) :
    step s = deliver e { s with events := rest } := by
  simp [step, h]

/-- Scheduled or by an empty schedule, the engine's turn is the same (log entry 2). -/
theorem step_engine {s : State} (h : s.events = [] ∨ s.events.head? = some .engine) :
    step s = engineTurn { s with events := s.events.tail } := by
  rcases h with hnil | hhead
  · have hs : { s with events := s.events.tail } = s := by cases s; simp_all
    rw [hs, step_of_no_events hnil]
  · obtain ⟨rest, hcons⟩ := List.head?_eq_some_iff.mp hhead
    rw [step_of_event hcons, hcons]
    rfl

/-- Settles O6: the engine's turn decodes CMD, and decoding answers well-formed commands only. -/
theorem stepRunsTheDecodedCommand : Obligations.StepRunsTheDecodedCommand := by
  unfold Obligations.StepRunsTheDecodedCommand
  intro s i hturn
  rw [step_engine hturn]
  refine ⟨fun hbusy hdecode => ⟨wellFormed_of_decode hdecode, ?_⟩, fun hidle => engineTurn_idle hidle⟩
  calc engineTurn { s with events := s.events.tail }
      = runCommand { s with events := s.events.tail } := engineTurn_busy hbusy
    _ = exec i { s with events := s.events.tail } := runCommand_legal hdecode

end Sys2Proof.Machine

/-! Every operation, every command and every step answers a next state. -/

namespace Sys2Proof.Machine

/-- The answer is a next state: neither a fault nor a refusal. -/
def GoesOn (r : Result) : Prop := ∃ t, r = .next t

/-! ### The shared operations: each goes on when what it hands its operand to does -/

theorem raised_goesOn (s : State) (c : Cause) (d : Detail) (pos : Offset) : GoesOn (raised s c d pos) := ⟨_, rfl⟩

theorem raisedFormat_goesOn (e : FormatError) (s : State) : GoesOn (raisedFormat e s) := ⟨_, rfl⟩

theorem completed_goesOn (s : State) (z rg : Bool) : GoesOn (completed s z rg) := ⟨_, rfl⟩

theorem writeField_goesOn (rd : RegIdx) (r : Nat) (s : State) : GoesOn (writeField rd r s) := ⟨_, rfl⟩

theorem writePoint_goesOn (rd : RegIdx) (S : Point) (s : State) : GoesOn (writePoint rd S s) := ⟨_, rfl⟩

theorem ite_goesOn {c : Prop} [Decidable c] {r r' : Result} (h : GoesOn r) (h' : GoesOn r') :
    GoesOn (if c then r else r') := by
  split_ifs
  · exact h
  · exact h'

theorem withField_goesOn {m : Nat} {i : RegIdx} {s : State} {k : Nat → Result} (hk : ∀ x, GoesOn (k x)) :
    GoesOn (withField m i s k) :=
  ite_goesOn (raised_goesOn _ _ _ _) (hk _)

theorem withPair_goesOn {i : RegIdx} {s : State} {k : Nat → Nat → Result} (hk : ∀ x y, GoesOn (k x y)) :
    GoesOn (withPair i s k) :=
  withField_goesOn fun x => withField_goesOn fun y => hk x y

theorem withOnCurve_goesOn {i : RegIdx} {x y : Nat} {s : State} {k : Point → Result} (hk : ∀ P, GoesOn (k P)) :
    GoesOn (withOnCurve i x y s k) :=
  ite_goesOn (hk _) (raised_goesOn _ _ _ _)

theorem withPoint_goesOn {i : RegIdx} {s : State} {k : Point → Result} (hk : ∀ P, GoesOn (k P)) :
    GoesOn (withPoint i s k) :=
  withPair_goesOn fun _ _ => withOnCurve_goesOn hk

theorem withParse_goesOn {α : Type} {r : Except FormatError α} {s : State} {k : α → Result}
    (hk : ∀ a, GoesOn (k a)) : GoesOn (withParse r s k) := by
  cases r with
  | error e => exact raisedFormat_goesOn e s
  | ok a => exact hk a

theorem withElement_goesOn {s : State} {k : Tlv → Result} (hk : ∀ t, GoesOn (k t)) : GoesOn (withElement s k) :=
  ite_goesOn (withParse_goesOn hk) (raisedFormat_goesOn _ _)

theorem withTagged_goesOn {tag : Byte} {s : State} {k : Tlv → Result} (hk : ∀ t, GoesOn (k t)) :
    GoesOn (withTagged tag s k) :=
  withElement_goesOn fun t => ite_goesOn (hk t) (raisedFormat_goesOn _ _)

/-! ### The commands -/

/-- Every command goes on, whatever the operands hold (60_exceptions.md R230). -/
theorem exec_goesOn (i : Instr) (s : State) : GoesOn (exec i s) := by
  cases i with
  | fadd | fsub | fmul | mmul =>
    exact withField_goesOn fun _ => withField_goesOn fun _ => writeField_goesOn _ _ _
  | fneg => exact withField_goesOn fun _ => writeField_goesOn _ _ _
  | finv => exact withField_goesOn fun _ => ite_goesOn (raised_goesOn _ _ _ _) (writeField_goesOn _ _ _)
  | fsqrt => exact withField_goesOn fun _ => ite_goesOn (raised_goesOn _ _ _ _) (writeField_goesOn _ _ _)
  | fred | bred => exact writeField_goesOn _ _ _
  | ldc => exact completed_goesOn _ _ _
  | padd =>
    rw [exec_padd]
    exact withPair_goesOn fun _ _ => withPair_goesOn fun _ _ =>
      withOnCurve_goesOn fun _ => withOnCurve_goesOn fun _ => writePoint_goesOn _ _ _
  | pdbl | pmul => exact withPoint_goesOn fun _ => writePoint_goesOn _ _ _
  | dtlv => exact withElement_goesOn fun _ => completed_goesOn _ _ _
  | dint =>
    exact withTagged_goesOn fun _ => ite_goesOn (raisedFormat_goesOn _ _)
      (ite_goesOn (raisedFormat_goesOn _ _) (completed_goesOn _ _ _))
  | dseq => exact withTagged_goesOn fun _ => withParse_goesOn fun _ => completed_goesOn _ _ _
  | dbit => exact withTagged_goesOn fun _ => ite_goesOn (raisedFormat_goesOn _ _) (completed_goesOn _ _ _)

/-! ### The step -/

theorem runCommand_goesOn (s : State) : GoesOn (runCommand s) := by
  cases hdecode : decode s.cmd with
  | error e => rw [runCommand_illegal hdecode]; exact raised_goesOn _ _ _ _
  | ok i => rw [runCommand_legal hdecode]; exact exec_goesOn i s

theorem engineTurn_goesOn (s : State) : GoesOn (engineTurn s) :=
  ite_goesOn (runCommand_goesOn s) ⟨s, rfl⟩

theorem deliver_goesOn (e : Event) (s : State) : GoesOn (deliver e s) := by
  cases e with
  | bus a => exact ⟨s.busAccess a, rfl⟩
  | engine => exact engineTurn_goesOn s
  | hardReset => exact ⟨s.hardReset, rfl⟩

theorem step_goesOn (s : State) : GoesOn (step s) := by
  cases hevents : s.events with
  | nil => rw [step_of_no_events hevents]; exact engineTurn_goesOn s
  | cons e rest => rw [step_of_event hevents]; exact deliver_goesOn e _

/-- Settles O8: the first event goes on, and so does the engine's turn where no event is left. -/
theorem everyStepGoesOn : Obligations.EveryStepGoesOn := by
  unfold Obligations.EveryStepGoesOn
  exact step_goesOn

end Sys2Proof.Machine

/-! The control and status registers at their window addresses (10_state.md R26): what a read answers and what a write
does, by register. -/

namespace Sys2Proof.Machine

/-- The window address of a control or status register (10_state.md R26). -/
def Csr.addr : Csr → Addr
  | .id => 0x000
  | .ctrl => 0x004
  | .status => 0x008
  | .cmd => 0x00C
  | .errcode => 0x010
  | .errpos => 0x014
  | .derPtr => 0x020
  | .derEnd => 0x024
  | .derTag => 0x028
  | .derLen => 0x02C
  | .derVoff => 0x030
  | .derNext => 0x034
  | .derCnt => 0x038

theorem placeOf_csrAddr (c : Csr) : placeOf c.addr = .csr c := by cases c <;> rfl

theorem misaligned_csrAddr (c : Csr) : misaligned c.addr = false := by cases c <;> rfl

theorem hostStep_readCsr (c : Csr) (s : State) :
    hostStep (.read c.addr) s = .next (s.respond (.readData (s.readCsr c))) :=
  hostStep_read (misaligned_csrAddr c) (placeOf_csrAddr c)

theorem hostStep_writeCsr (c : Csr) (d : BusWord) (s : State) :
    hostStep (.write c.addr d) s = .next ((s.writeCsr d c).respond .writeDone) :=
  hostStep_write (misaligned_csrAddr c) (placeOf_csrAddr c)

/-- A write with SRST set is the soft reset, whatever the other bits are (10_state.md R27). -/
theorem writeCtrl_srst {d : BusWord} (h : d.getLsbD 1 = true) (s : State) : s.writeCtrl d = s.softReset := if_pos h

theorem writeCtrl_ie {d : BusWord} (h : d.getLsbD 1 = false) (s : State) :
    s.writeCtrl d = { s with ie := d.getLsbD 0 } := if_neg (Bool.eq_false_iff.mp h)

end Sys2Proof.Machine

/-! The control registers as words: a flag, ERRCODE's two codes, and a field with zeros above it. -/

namespace Sys2Proof.Machine

/-- A flag's word has the flag at its bit and 0 elsewhere (10_state.md R26). -/
theorem getLsbD_flagAt {i : Nat} (hi : i < 32) (b : Bool) (k : Nat) :
    (flagAt b i).getLsbD k = (decide (k = i) && b) := by
  simp only [flagAt, BitVec.getLsbD_shiftLeft, BitVec.getLsbD_setWidth, BitVec.getLsbD_ofBool]
  rcases lt_trichotomy k i with hlt | rfl | hgt
  · simp [hlt, hlt.ne]
  · simp [hi]
  · simp [show k - i ≠ 0 by omega, hgt.ne']

/-- IE alone is CTRL's word (10_state.md R27). -/
theorem ctrlWord_eq (s : State) : s.ctrlWord = if s.ie then 1 else 0 := by
  unfold State.ctrlWord
  cases s.ie <;> rfl

/-- STATUS has a flag at each of its bits 0 to 5 and 0 above (10_state.md R28). -/
theorem getLsbD_statusWord (s : State) (k : Nat) :
    s.statusWord.getLsbD k = [s.busy, s.done, s.err, s.z, s.rg, s.ovr].getD k false := by
  simp only [State.statusWord, BitVec.getLsbD_or, getLsbD_flagAt, Nat.reduceLT]
  match k with
  | 0 | 1 | 2 | 3 | 4 | 5 => simp
  | n + 6 => simp

/-- Two bytes side by side are a number in base 256. -/
theorem byte_pair_eq_ofNat (hi lo : BitVec 8) :
    (hi.setWidth 32 <<< 8 ||| lo.setWidth 32 : BusWord) = BitVec.ofNat 32 (256 * hi.toNat + lo.toNat) := by
  have hhi := hi.isLt
  have hlo := lo.isLt
  apply BitVec.eq_of_toNat_eq
  rw [BitVec.toNat_or, BitVec.toNat_shiftLeft, BitVec.toNat_setWidth_of_le (by decide),
    BitVec.toNat_setWidth_of_le (by decide), BitVec.toNat_ofNat, Nat.shiftLeft_eq, Nat.mod_eq_of_lt (by omega),
    Nat.mod_eq_of_lt (by omega), ← Nat.shiftLeft_eq, ← Nat.shiftLeft_add_eq_or_of_lt hlo, Nat.shiftLeft_eq]
  omega

/-- ERRCODE's word is its two codes in base 256 (10_state.md R30). -/
theorem errcodeWord_eq (s : State) :
    s.errcodeWord = BitVec.ofNat 32 (256 * s.detail.code.toNat + s.cause.code.toNat) :=
  byte_pair_eq_ofNat _ _

/-- The codes of 60_exceptions.md R231. -/
theorem cause_code_mem (c : Cause) :
    (c, c.code.toNat) ∈ [(Cause.none, 0), (.illegal, 1), (.encoding, 2), (.domain, 3), (.divZero, 4), (.noSqrt, 5),
      (.format, 6)] := by
  cases c <;> decide

/-- The codes of 42_der.md R191. -/
theorem detail_code_mem (d : Detail) :
    (d, d.code.toNat) ∈ [(Detail.none, 0), (.badSlice, 1), (.truncHdr, 2), (.indefLen, 3), (.truncLen, 4),
      (.nonminLen, 5), (.shortValue, 6), (.wrongTag, 7), (.nonminInt, 8), (.emptyInt, 9), (.badUnused, 10)] := by
  cases d <;> decide

/-- A register that is one field with zeros above it reads as the field's number. -/
theorem hostStep_readCsr_field {w : Nat} {c : Csr} {s : State} {f : BitVec w} (hw : w ≤ 32)
    (hf : s.readCsr c = f.setWidth 32) :
    hostStep (.read c.addr) s = .next { s with resp := some (.readData (BitVec.ofNat 32 f.toNat)) } ∧
      f.toNat < 2 ^ 32 := by
  refine ⟨?_, f.isLt.trans_le (Nat.pow_le_pow_right (by decide) hw)⟩
  rw [hostStep_readCsr, hf, BitVec.ofNat_toNat]
  rfl

end Sys2Proof.Machine

/-! What a step does to ID: nothing (10_state.md R31). -/

namespace Sys2Proof.Machine

/-- Everything the engine's turn can do: nothing while idle, ILLEGAL, or one end of the decoded command. -/
theorem engineTurn_next {s t : State} (h : engineTurn s = .next t) :
    (s.busy = false ∧ t = s) ∨
      (∃ e, s.busy = true ∧ decode s.cmd = .error e ∧ t = s.raise .illegal .none 0) ∨
      (∃ i, s.busy = true ∧ decode s.cmd = .ok i ∧ Ends i s t) := by
  cases hbusy : s.busy with
  | false =>
    rw [engineTurn_idle hbusy] at h
    exact Or.inl ⟨rfl, (Host.Outcome.next.inj h).symm⟩
  | true =>
    rw [engineTurn_busy hbusy] at h
    cases hdecode : decode s.cmd with
    | error e =>
      rw [runCommand_illegal hdecode] at h
      exact Or.inr (Or.inl ⟨e, rfl, rfl, raised_next h⟩)
    | ok i =>
      rw [runCommand_legal hdecode] at h
      exact Or.inr (Or.inr ⟨i, rfl, rfl, exec_ends i s t h⟩)

theorem Ends.id_eq {i : Instr} {s t : State} (h : Ends i s t) : t.id = s.id := by
  cases h with
  | error | field | point | dtlv | dint | dseq | dbit => rfl

theorem gated_id {s t : State} (h : t.id = s.id) : (s.gated t).id = s.id := by
  cases hbusy : s.busy with
  | false => rw [gated_idle hbusy, h]
  | true => rw [gated_busy hbusy, State.dropWrite_id]

theorem writeCtrl_id (s : State) (d : BusWord) : (s.writeCtrl d).id = s.id := by
  cases hsrst : d.getLsbD 1 with
  | false => rw [writeCtrl_ie hsrst]
  | true => rw [writeCtrl_srst hsrst, State.softReset_id]

theorem writeCsr_id (s : State) (d : BusWord) (c : Csr) : (s.writeCsr d c).id = s.id := by
  cases c with
  | ctrl => exact writeCtrl_id s d
  | cmd | derPtr | derEnd => exact gated_id rfl
  | id | status | errcode | errpos | derTag | derLen | derVoff | derNext | derCnt => rfl

theorem writePlace_id (s : State) (d : BusWord) (p : Place) : (s.writePlace d p).id = s.id := by
  cases p with
  | csr c => exact writeCsr_id s d c
  | reg | der => exact gated_id rfl
  | rom | reserved => rfl

theorem busAccess_id (s : State) (a : BusAccess) : (s.busAccess a).id = s.id := by
  cases a with
  | read addr =>
    obtain ⟨r, hr⟩ := busAccess_read s addr
    rw [hr, State.respond_id]
  | write addr d =>
    simp only [State.busAccess]
    split_ifs
    · exact State.respond_id s _
    · rw [State.respond_id, writePlace_id]

theorem engineTurn_id {s t : State} (h : engineTurn s = .next t) : t.id = s.id := by
  rcases engineTurn_next h with ⟨_, rfl⟩ | ⟨_, _, _, rfl⟩ | ⟨_, _, _, hends⟩
  · rfl
  · exact State.raise_id s _ _ _
  · exact hends.id_eq

theorem deliver_id {e : Event} {s t : State} (h : deliver e s = .next t) : t.id = s.id := by
  cases e with
  | bus a => rw [← Host.Outcome.next.inj h, busAccess_id]
  | engine => exact engineTurn_id h
  | hardReset => rw [← Host.Outcome.next.inj h]; rfl

theorem step_id {s t : State} (h : step s = .next t) : t.id = s.id := by
  cases hevents : s.events with
  | nil => rw [step_of_no_events hevents] at h; exact engineTurn_id h
  | cons e rest => rw [step_of_event hevents] at h; exact deliver_id (s := { s with events := rest }) h

end Sys2Proof.Machine

/-! The constant ROM (10_state.md R34). -/

namespace Sys2Proof.Machine

/-- The used slots' constants, in the order of the slots. -/
def domainConstants : List Nat := [curveP, curveA, curveB, baseX, baseY, curveQ, cofactor]

theorem romSlot_of_domainConstants {k v : Nat} (h : domainConstants[k]? = some v) :
    k < 7 ∧ romSlot k = BitVec.ofNat 256 v := by
  match k with
  | 0 | 1 | 2 | 3 | 4 | 5 | 6 => exact ⟨by decide, by rw [← Option.some.inj h]; rfl⟩
  | n + 7 => simp [domainConstants] at h

/-- Word j of a 256-bit number: the number shifted down to the word's low end (20_memory.md R62). -/
theorem wordOfReg_ofNat (v : Nat) {j : Nat} (hj : j < 8) :
    wordOfReg (BitVec.ofNat 256 v) j = BitVec.ofNat 32 (v / 2 ^ (224 - 32 * j)) := by
  apply BitVec.eq_of_getLsbD_eq
  intro k hk
  rw [getLsbD_wordOfReg _ _ _ hk, BitVec.getLsbD_ofNat, BitVec.getLsbD_ofNat, Nat.testBit_div_two_pow,
    Nat.add_comm k]
  simp [hk, show 224 - 32 * j + k < 256 by omega]

theorem hostStep_readRom {k j : Nat} {a : Addr} (hk : k < 8) (hj : j < 8) (ha : a.toNat = 0x200 + 32 * k + 4 * j)
    (s : State) : hostStep (.read a) s = .next (s.respond (.readData (wordOfReg (romSlot k) j))) := by
  have haligned : Aligned a := by unfold Aligned; omega
  have hrom : InRom a := by unfold InRom; omega
  have hplace : placeOf a = .rom k j := by
    rw [placeOf_rom hrom, show (a.toNat - 0x200) / 32 = k by omega, show a.toNat % 32 / 4 = j by omega]
  exact hostStep_read (misaligned_of_aligned haligned) hplace

end Sys2Proof.Machine

/-! A host access while BUSY = 1, from two states that differ in the registers only (10_state.md R22, 20_memory.md
R68). -/

namespace Sys2Proof.Machine

/-- The state with other operand registers and nothing else changed. -/
def State.replaceRegs (s : State) (r : Vector RegWord 16) : State := { s with regs := r }

/-- The register window reads 0, and no other place shows a register. -/
theorem readPlace_replaceRegs {s : State} (h : s.busy = true) (r : Vector RegWord 16) (p : Place) :
    (s.replaceRegs r).readPlace p = s.readPlace p := by
  cases p with
  | csr c => cases c <;> rfl
  | reg i j => simp [State.readPlace, State.replaceRegs, h]
  | rom | der | reserved => rfl

/-- A gated write is dropped whatever it would have stored. -/
theorem gated_replaceRegs {s : State} (h : s.busy = true) (r : Vector RegWord 16) (t t' : State) :
    (s.replaceRegs r).gated t' = (s.gated t).replaceRegs r := by
  rw [gated_busy h, gated_busy (show (s.replaceRegs r).busy = true from h)]
  rfl

/-- A soft reset clears both states' registers; any other write to CTRL keeps them. -/
theorem writeCtrl_replaceRegs (s : State) (r : Vector RegWord 16) (d : BusWord) :
    ∃ r', (s.replaceRegs r).writeCtrl d = (s.writeCtrl d).replaceRegs r' := by
  cases hsrst : d.getLsbD 1 with
  | false => rw [writeCtrl_ie hsrst, writeCtrl_ie hsrst]; exact ⟨r, rfl⟩
  | true => rw [writeCtrl_srst hsrst, writeCtrl_srst hsrst]; exact ⟨State.reset.regs, rfl⟩

theorem writePlace_replaceRegs {s : State} (h : s.busy = true) (r : Vector RegWord 16) (d : BusWord) (p : Place) :
    ∃ r', (s.replaceRegs r).writePlace d p = (s.writePlace d p).replaceRegs r' := by
  cases p with
  | csr c =>
    cases c with
    | ctrl => exact writeCtrl_replaceRegs s r d
    | cmd | derPtr | derEnd => exact ⟨r, gated_replaceRegs h r _ _⟩
    | id | status | errcode | errpos | derTag | derLen | derVoff | derNext | derCnt => exact ⟨r, rfl⟩
  | reg | der => exact ⟨r, gated_replaceRegs h r _ _⟩
  | rom | reserved => exact ⟨r, rfl⟩

theorem busAccess_replaceRegs {s : State} (h : s.busy = true) (r : Vector RegWord 16) (a : BusAccess) :
    ∃ r', (s.replaceRegs r).busAccess a = (s.busAccess a).replaceRegs r' := by
  cases a with
  | read addr =>
    refine ⟨r, ?_⟩
    simp only [State.busAccess, readPlace_replaceRegs h]
    split_ifs <;> rfl
  | write addr d =>
    simp only [State.busAccess]
    split_ifs
    · exact ⟨r, rfl⟩
    · obtain ⟨r', hr'⟩ := writePlace_replaceRegs h r d (placeOf addr)
      exact ⟨r', by rw [hr']; rfl⟩

end Sys2Proof.Machine

/-! The statements about the state (10_state.md). -/

namespace Sys2Proof.Machine

/-- Settles O60: no flag is set, no command is in flight, and the buffer list is empty. -/
theorem resetHasTheInvariant : Obligations.ResetHasTheInvariant := by
  unfold Obligations.ResetHasTheInvariant
  exact {
    memory := State.reset_mem_wf
    inFlight := fun hbusy => absurd hbusy (by simp)
    noError := fun _ => ⟨rfl, rfl, rfl⟩
    error := fun herr => absurd herr (by simp)
    detail := by simp
    range := fun hrg => absurd hrg (by simp)
    derResult := by simp
    derCount := by simp }

/-- Settles O51: each of the two flags by the bit that clears it. -/
theorem statusWriteOneClears : Obligations.StatusWriteOneClears := by
  unfold Obligations.StatusWriteOneClears
  intro s d
  have hclear (flag bit : Bool) : (flag && !bit) = if bit = true then false else flag := by cases bit <;> simp
  rw [← hclear, ← hclear]
  exact hostStep_writeCsr .status d s

/-- Settles O50: the soft reset looks at bit 1 alone, and flipping bit 0 keeps bit 1. -/
theorem ctrlReadsAndWrites : Obligations.CtrlReadsAndWrites := by
  unfold Obligations.CtrlReadsAndWrites
  intro s d
  have hwrite (d' : BusWord) : hostStep (.write 0x004 d') s = .next ((s.writeCtrl d').respond .writeDone) :=
    hostStep_writeCsr .ctrl d' s
  refine ⟨?_, fun hkeep => ?_, fun hsrst => ?_⟩
  · rw [← ctrlWord_eq]
    exact hostStep_readCsr .ctrl s
  · rw [hwrite, writeCtrl_ie hkeep]
    rfl
  · have hflip : (d ^^^ 1).getLsbD 1 = true := by rw [BitVec.getLsbD_xor, hsrst]; rfl
    refine ⟨s.softReset.respond .writeDone, ?_, rfl, rfl, State.reg_reset, ?_⟩
    · rw [hwrite, writeCtrl_srst hsrst]
    · rw [hwrite, writeCtrl_srst hflip]

/-- Settles O49, register by register. -/
theorem controlRegistersReadAsTheirFields : Obligations.ControlRegistersReadAsTheirFields := by
  unfold Obligations.ControlRegistersReadAsTheirFields
  intro s
  refine ⟨⟨s.statusWord, hostStep_readCsr .status s, getLsbD_statusWord s⟩,
    ⟨s.cause.code.toNat, s.detail.code.toNat, cause_code_mem _, detail_code_mem _, ?_⟩, ?_, fun d hidle => ?_⟩
  · rw [← errcodeWord_eq]
    exact hostStep_readCsr .errcode s
  · simp only [List.forall_mem_cons, List.not_mem_nil, false_implies, implies_true, and_true]
    exact ⟨hostStep_readCsr_field (c := .cmd) (by decide) (BitVec.setWidth_eq _).symm,
      hostStep_readCsr_field (c := .errpos) (by decide) rfl, hostStep_readCsr_field (c := .derPtr) (by decide) rfl,
      hostStep_readCsr_field (c := .derEnd) (by decide) rfl, hostStep_readCsr_field (c := .derTag) (by decide) rfl,
      hostStep_readCsr_field (c := .derLen) (by decide) rfl, hostStep_readCsr_field (c := .derVoff) (by decide) rfl,
      hostStep_readCsr_field (c := .derNext) (by decide) rfl, hostStep_readCsr_field (c := .derCnt) (by decide) rfl⟩
  · have hlow : d.extractLsb' 0 12 = d.setWidth 12 := (BitVec.setWidth_eq_extractLsb' (by decide)).symm
    have hptr := hostStep_writeCsr .derPtr d s
    have hend := hostStep_writeCsr .derEnd d s
    simp only [State.writeCsr, gated_idle hidle] at hptr hend
    rw [hlow]
    exact ⟨hptr, hend⟩

/-- Settles O48: each slot's constant as a number, and its words by division. -/
theorem idAndConstantsReadBack : Obligations.IdAndConstantsReadBack := by
  unfold Obligations.IdAndConstantsReadBack
  intro s
  refine ⟨hostStep_readCsr .id s, fun t hstep => step_id hstep, fun k j v a hj ha hv => ?_⟩
  obtain ⟨hk, hslot⟩ := romSlot_of_domainConstants hv
  rw [hostStep_readRom (by omega) hj ha, hslot, wordOfReg_ofNat v hj]
  rfl

/-- Settles O58: a host access from the second state is the one from the first, but for the registers. -/
theorem registersAreHiddenWhileBusy : Obligations.RegistersAreHiddenWhileBusy := by
  unfold Obligations.RegistersAreHiddenWhileBusy
  intro s s' a hbusy hsame
  obtain ⟨r', hr'⟩ := busAccess_replaceRegs hbusy s'.regs a
  have haccess : s'.busAccess a = (s.busAccess a).replaceRegs r' := by rw [hsame]; exact hr'
  exact ⟨s.busAccess a, s'.busAccess a, hostStep_eq a s, hostStep_eq a s', by rw [haccess]; rfl, by rw [haccess]; rfl⟩

end Sys2Proof.Machine

/-! Where the addresses of the host window lie, and what an aligned access there does (20_memory.md R64, R67, R68). -/

namespace Sys2Proof.Machine

/-- A word of the control block is a register at its own address, or reserved. -/
theorem csrPlace_cases (n : Nat) :
    (∃ c : Csr, csrPlace n = .csr c ∧ c.addr.toNat = 4 * n) ∨ csrPlace n = .reserved := by
  unfold csrPlace
  split
  case h_14 => exact Or.inr rfl
  all_goals exact Or.inl ⟨_, rfl, rfl⟩

/-- Every aligned address is a control register's, lies in a register, buffer or ROM range, or is reserved
(20_memory.md R64). -/
theorem placeOf_cases {a : Addr} (ha : Aligned a) :
    (∃ c : Csr, a = c.addr) ∨ InRegWindow a ∨ InDerWindow a ∨ InRom a ∨ placeOf a = .reserved := by
  unfold Aligned at ha
  unfold InRegWindow InDerWindow InRom placeOf
  dsimp only
  split_ifs with hcsr hgap hrom hgap' hreg hgap''
  · rcases csrPlace_cases (a.toNat / 4) with ⟨c, -, haddr⟩ | hreserved
    · exact Or.inl ⟨c, BitVec.eq_of_toNat_eq (by omega)⟩
    · simp [hreserved]
  · simp
  · right; right; right; left; omega
  · simp
  · right; left; omega
  · simp
  · right; right; left; omega

/-- An aligned address whose place is a control register is that register's. -/
theorem eq_csrAddr_of_placeOf {a : Addr} {c : Csr} (ha : Aligned a) (hp : placeOf a = .csr c) : a = c.addr := by
  rcases placeOf_cases ha with ⟨c', rfl⟩ | hreg | hder | hrom | hreserved
  · rw [placeOf_csrAddr] at hp
    rw [Place.csr.inj hp]
  · rw [placeOf_reg hreg] at hp; cases hp
  · rw [placeOf_der hder] at hp; cases hp
  · rw [placeOf_rom hrom] at hp; cases hp
  · rw [hreserved] at hp; cases hp

/-- The read-only control registers (10_state.md R26). -/
def readOnlyCsrs : List Csr := [.id, .errcode, .errpos, .derTag, .derLen, .derVoff, .derNext, .derCnt]

theorem isReadOnly_iff {a : Addr} : IsReadOnly a ↔ ∃ c ∈ readOnlyCsrs, a = c.addr := by
  have hlist : IsReadOnly a ↔ a.toNat ∈ readOnlyCsrs.map (fun c => c.addr.toNat) := Iff.rfl
  simp only [hlist, List.mem_map, BitVec.toNat_inj, eq_comm]

/-- A write to a read-only register changes nothing. -/
theorem writeCsr_readOnly {c : Csr} (hc : c ∈ readOnlyCsrs) (s : State) (d : BusWord) : s.writeCsr d c = s := by
  cases c with
  | id | errcode | errpos | derTag | derLen | derVoff | derNext | derCnt => rfl
  | ctrl | status | cmd | derPtr | derEnd => exact absurd hc (by decide)

/-- A write that BUSY gates is dropped (20_memory.md R68). -/
theorem writePlace_gated {s : State} {a : Addr} (hbusy : s.busy = true) (hgated : IsGated a) (d : BusWord) :
    s.writePlace d (placeOf a) = s.dropWrite := by
  rcases hgated with hreg | hder | rfl | rfl | rfl
  · rw [placeOf_reg hreg]; exact gated_busy hbusy
  · rw [placeOf_der hder]; exact gated_busy hbusy
  · exact gated_busy hbusy
  · exact gated_busy hbusy
  · exact gated_busy hbusy

/-- A write to a read-only register, the ROM or a reserved offset is ignored (20_memory.md R67, R68). -/
theorem writePlace_ignored {a : Addr} (h : IsReadOnly a ∨ InRom a ∨ IsReserved a) (s : State) (d : BusWord) :
    s.writePlace d (placeOf a) = s := by
  rcases h with hro | hrom | hreserved
  · obtain ⟨c, hc, rfl⟩ := isReadOnly_iff.mp hro
    rw [placeOf_csrAddr]
    exact writeCsr_readOnly hc s d
  · rw [placeOf_rom hrom]; rfl
  · rw [placeOf_reserved hreserved]; rfl

/-- Outside the register window and STATUS, a read does not depend on BUSY (20_memory.md R68). -/
theorem readPlace_withBusy {a : Addr} (ha : Aligned a) (hreg : ¬ InRegWindow a) (hstatus : a ≠ 0x008) (s : State)
    (b : Bool) : ({ s with busy := b } : State).readPlace (placeOf a) = s.readPlace (placeOf a) := by
  rcases placeOf_cases ha with ⟨c, rfl⟩ | hin | hder | hrom | hreserved
  · rw [placeOf_csrAddr]
    cases c with
    | status => exact absurd rfl hstatus
    | id | ctrl | cmd | errcode | errpos | derPtr | derEnd | derTag | derLen | derVoff | derNext | derCnt => rfl
  · exact absurd hin hreg
  · rw [placeOf_der hder]; rfl
  · rw [placeOf_rom hrom]; rfl
  · rw [hreserved]; rfl

/-! ### One access, by its alignment (20_memory.md R63) -/

/-- Bits 1:0 of an address are its remainder by 4. -/
theorem misaligned_iff {a : Addr} : misaligned a = true ↔ a.extractLsb' 0 2 ≠ 0 := by
  simp [misaligned, ← BitVec.toNat_inj]

theorem aligned_of_misaligned_eq_false {a : Addr} (h : misaligned a = false) : Aligned a := by
  unfold Aligned
  simpa [misaligned] using h

theorem busAccess_misalignedRead {a : Addr} (h : misaligned a = true) (s : State) :
    s.busAccess (.read a) = s.respond (.readError 0) := if_pos h

theorem busAccess_misalignedWrite {a : Addr} (h : misaligned a = true) (s : State) (d : BusWord) :
    s.busAccess (.write a d) = s.respond .writeError := if_pos h

theorem busAccess_alignedWrite {a : Addr} (h : misaligned a = false) (s : State) (d : BusWord) :
    s.busAccess (.write a d) = (s.writePlace d (placeOf a)).respond .writeDone := if_neg (Bool.eq_false_iff.mp h)

theorem hostStep_write_of_writePlace {a : Addr} {s t : State} {d : BusWord} (ha : Aligned a)
    (h : s.writePlace d (placeOf a) = t) : hostStep (.write a d) s = .next (t.respond .writeDone) := by
  rw [hostStep_write (misaligned_of_aligned ha) rfl, h]

theorem hostStep_read_of_readPlace {a : Addr} {s : State} {v : BusWord} (ha : Aligned a)
    (h : s.readPlace (placeOf a) = v) : hostStep (.read a) s = .next (s.respond (.readData v)) := by
  rw [hostStep_read (misaligned_of_aligned ha) rfl, h]

end Sys2Proof.Machine

/-! Words of the operand registers and of the DER buffer at their window addresses (20_memory.md R62, R64). -/

namespace Sys2Proof.Machine

theorem wordOfReg_zero (j : Nat) : wordOfReg 0 j = 0 := by simp [wordOfReg]

/-- The address of word j of register i (20_memory.md R62, R64). -/
theorem placeOf_regWord {i : RegIdx} {j : Nat} {a : Addr} (hj : j < 8) (ha : a.toNat = 0x400 + 32 * i.toNat + 4 * j) :
    Aligned a ∧ placeOf a = .reg i j := by
  have hreg : InRegWindow a := by unfold InRegWindow; omega
  refine ⟨by unfold Aligned; omega, ?_⟩
  rw [placeOf_reg hreg, show (a.toNat - 0x400) / 32 = i.toNat by omega, show a.toNat % 32 / 4 = j by omega,
    BitVec.ofNat_toNat, BitVec.setWidth_eq]

/-- The address of word n of the DER buffer (20_memory.md R64). -/
theorem placeOf_derWord {n : Nat} {a : Addr} (ha : a.toNat = 0x800 + 4 * n) :
    Aligned a ∧ placeOf a = .der (4 * n) := by
  have hder : InDerWindow a := by unfold InDerWindow; omega
  exact ⟨by unfold Aligned; omega, by rw [placeOf_der hder, show a.toNat - 0x800 = 4 * n by omega]⟩

/-- A byte shifted into a bus word has its bits there and 0 elsewhere. -/
theorem getLsbD_shiftedByte (x : Byte) (sh : Nat) {k : Nat} (hk : k < 32) :
    (x.setWidth 32 <<< sh : BusWord).getLsbD k = (decide (sh ≤ k ∧ k < sh + 8) && x.getLsbD (k - sh)) := by
  rw [BitVec.getLsbD_shiftLeft, BitVec.getLsbD_setWidth]
  by_cases hin : sh ≤ k ∧ k < sh + 8
  · simp [hin, hk, show k - sh < 32 by omega]
  · by_cases hle : sh ≤ k
    · simp [hin, x.getLsbD_of_ge (k - sh) (by omega)]
    · simp [hle, show k < sh by omega]

/-- Byte b of a buffer word, counted from its most significant end (20_memory.md R62): its bits are where no
other byte has any. -/
theorem extractLsb'_derWord (s : State) (i : Nat) {b : Nat} (hb : b < 4) :
    (s.derWord i).extractLsb' (24 - 8 * b) 8 = s.derByte (i + b) := by
  apply BitVec.eq_of_getLsbD_eq
  intro k hk
  have hlow : (s.derByte (i + 3)).setWidth 32 = (s.derByte (i + 3)).setWidth 32 <<< 0 := (BitVec.shiftLeft_zero _).symm
  rw [BitVec.getLsbD_extractLsb', State.derWord, hlow]
  simp only [BitVec.getLsbD_or, getLsbD_shiftedByte _ _ (show 24 - 8 * b + k < 32 by omega)]
  interval_cases b <;> grind

/-- Byte b of the word just written to the buffer (20_memory.md R62). -/
theorem derByte_writeWord_inside (s : State) (off : Nat) (d : BusWord) {b : Nat} (hb : b < 4) :
    ({ s with mem := s.mem.writeWord (Config.derBase + off) d } : State).derByte (off + b) =
      d.extractLsb' (24 - 8 * b) 8 := by
  rw [State.derByte_writeWord]
  interval_cases b <;> simp

/-- The bytes outside the word just written (20_memory.md R62). -/
theorem derByte_writeWord_outside (s : State) {off x : Nat} (d : BusWord) (hx : x < off ∨ off + 4 ≤ x) :
    ({ s with mem := s.mem.writeWord (Config.derBase + off) d } : State).derByte x = s.derByte x := by
  rw [State.derByte_writeWord, if_neg (by omega), if_neg (by omega), if_neg (by omega), if_neg (by omega)]

end Sys2Proof.Machine

/-! A write to any place but CMD can be repeated without further effect (20_memory.md R66). -/

namespace Sys2Proof.Machine

theorem setReg_setReg (s : State) (i : RegIdx) (v w : RegWord) : (s.setReg i v).setReg i w = s.setReg i w := by
  simp [State.setReg]

theorem setWordOfReg_setWordOfReg (v : RegWord) {j : Nat} (hj : j < 8) (d : BusWord) :
    setWordOfReg (setWordOfReg v j d) j d = setWordOfReg v j d := by
  apply BitVec.eq_of_getLsbD_eq
  intro k hk
  rw [getLsbD_setWordOfReg _ _ hj _ _ hk]
  split_ifs with hin
  · rw [getLsbD_setWordOfReg _ _ hj _ _ hk, if_pos hin]
  · rfl

/-- The second write changes no byte, and canonical memories with the same bytes are equal (log entry 5). -/
theorem writeWord_writeWord {m : Memory} {a : Nat} (hlo : Config.derBase ≤ a)
    (hhi : a + 3 < Config.derBase + Config.derSize) (hwf : m.wf = true) (d : BusWord) :
    (m.writeWord a d).writeWord a d = m.writeWord a d := by
  have hwf' := Memory.wf_writeWord m a d hlo hhi hwf
  refine Memory.wf_ext (Memory.wf_writeWord _ a d hlo hhi hwf') hwf' fun x => ?_
  simp only [Memory.writeWord, Memory.lookup_write]
  split_ifs <;> rfl

/-- A gated write is dropped twice while BUSY = 1; while idle it can be repeated if what it stores can. -/
theorem gated_gated {s t u : State} (hbusy : t.busy = s.busy) (hu : s.busy = false → u = t) :
    (s.gated t).gated u = s.gated t := by
  cases h : s.busy with
  | false => rw [gated_idle h, gated_idle (hbusy.trans h), hu h]
  | true => rw [gated_busy h, gated_busy (s.dropWrite_busy.trans h)]; rfl

theorem writeCtrl_writeCtrl (s : State) (d : BusWord) : (s.writeCtrl d).writeCtrl d = s.writeCtrl d := by
  cases hsrst : d.getLsbD 1 with
  | false => simp only [writeCtrl_ie hsrst]
  | true => simp only [writeCtrl_srst hsrst]; rfl

theorem writeStatus_writeStatus (s : State) (d : BusWord) : (s.writeStatus d).writeStatus d = s.writeStatus d := by
  simp [State.writeStatus]

theorem writeCsr_writeCsr (s : State) (d : BusWord) {c : Csr} (hc : c ≠ .cmd) :
    (s.writeCsr d c).writeCsr d c = s.writeCsr d c := by
  cases c with
  | ctrl => exact writeCtrl_writeCtrl s d
  | status => exact writeStatus_writeStatus s d
  | cmd => exact absurd rfl hc
  | derPtr | derEnd => exact gated_gated rfl fun hidle => by simp only [State.writeCsr, gated_idle hidle]
  | id | errcode | errpos | derTag | derLen | derVoff | derNext | derCnt => rfl

theorem writePlace_writePlace {a : Addr} (ha : Aligned a) (hcmd : a ≠ 0x00C) {s : State} (hwf : s.mem.wf = true)
    (d : BusWord) :
    (s.writePlace d (placeOf a)).writePlace d (placeOf a) = s.writePlace d (placeOf a) := by
  rcases placeOf_cases ha with ⟨c, rfl⟩ | hreg | hder | hrom | hreserved
  · rw [placeOf_csrAddr]
    exact writeCsr_writeCsr s d fun hc => hcmd (by rw [hc]; rfl)
  · rw [placeOf_reg hreg]
    refine gated_gated rfl fun hidle => ?_
    simp only [State.writePlace, gated_idle hidle]
    rw [State.reg_setReg_same, setWordOfReg_setWordOfReg _ (by omega), setReg_setReg]
  · rw [placeOf_der hder]
    have hlt := a.isLt
    unfold Aligned at ha
    unfold InDerWindow at hder
    have hmem := writeWord_writeWord (m := s.mem) (a := Config.derBase + (a.toNat - 0x800)) (by omega)
      (by unfold Config.derBase Config.derSize; omega) hwf d
    exact gated_gated rfl fun hidle => by simp only [State.writePlace, gated_idle hidle, hmem]
  · rw [placeOf_rom hrom]; rfl
  · rw [hreserved]; rfl

theorem gated_respond {s t t' : State} {r : BusResponse} (ht : t' = t.respond r) :
    (s.respond r).gated t' = (s.gated t).respond r := by
  subst ht
  cases h : s.busy with
  | false => rw [gated_idle h, gated_idle ((s.respond_busy r).trans h)]
  | true => rw [gated_busy h, gated_busy ((s.respond_busy r).trans h)]; rfl

/-- No write looks at the last answer, and none changes it. -/
theorem writePlace_respond (s : State) (d : BusWord) (r : BusResponse) (p : Place) :
    (s.respond r).writePlace d p = (s.writePlace d p).respond r := by
  cases p with
  | csr c =>
    cases c with
    | ctrl =>
      cases hsrst : d.getLsbD 1 with
      | false => simp only [State.writePlace, State.writeCsr, writeCtrl_ie hsrst]; rfl
      | true => simp only [State.writePlace, State.writeCsr, writeCtrl_srst hsrst]; rfl
    | cmd | derPtr | derEnd => exact gated_respond rfl
    | id | status | errcode | errpos | derTag | derLen | derVoff | derNext | derCnt => rfl
  | reg | der => exact gated_respond rfl
  | rom | reserved => rfl

end Sys2Proof.Machine

/-! What a host access keeps while BUSY = 1 (20_memory.md R68, R70). -/

namespace Sys2Proof.Machine

/-- Every operand a command can read is the same in t, and the same command is in flight. -/
structure SameOperands (s t : State) : Prop where
  regs : t.regs = s.regs
  mem : t.mem = s.mem
  epoch : t.epoch = s.epoch
  derPtr : t.derPtr = s.derPtr
  derEnd : t.derEnd = s.derEnd
  cmd : t.cmd = s.cmd
  busy : t.busy = s.busy

theorem SameOperands.refl (s : State) : SameOperands s s := ⟨rfl, rfl, rfl, rfl, rfl, rfl, rfl⟩

theorem SameOperands.dropWrite (s : State) : SameOperands s s.dropWrite := ⟨rfl, rfl, rfl, rfl, rfl, rfl, rfl⟩

theorem SameOperands.writeStatus (s : State) (d : BusWord) : SameOperands s (s.writeStatus d) :=
  ⟨rfl, rfl, rfl, rfl, rfl, rfl, rfl⟩

theorem SameOperands.writeCtrl {d : BusWord} (hsrst : d.getLsbD 1 = false) (s : State) :
    SameOperands s (s.writeCtrl d) := by
  rw [writeCtrl_ie hsrst]
  exact ⟨rfl, rfl, rfl, rfl, rfl, rfl, rfl⟩

theorem SameOperands.respond {s t : State} (h : SameOperands s t) (r : BusResponse) : SameOperands s (t.respond r) :=
  ⟨h.regs, h.mem, h.epoch, h.derPtr, h.derEnd, h.cmd, h.busy⟩

theorem SameOperands.gated {s : State} (hbusy : s.busy = true) (t : State) : SameOperands s (s.gated t) := by
  rw [gated_busy hbusy]
  exact SameOperands.dropWrite s

/-- While BUSY = 1 no write but a soft reset touches an operand: it is dropped, ignored, or sets report flags or IE. -/
theorem SameOperands.writePlace {s : State} {d : BusWord} {p : Place} (hbusy : s.busy = true)
    (hsrst : p = .csr .ctrl → d.getLsbD 1 = false) : SameOperands s (s.writePlace d p) := by
  cases p with
  | csr c =>
    cases c with
    | ctrl => exact SameOperands.writeCtrl (hsrst rfl) s
    | status => exact SameOperands.writeStatus s d
    | cmd | derPtr | derEnd => exact SameOperands.gated hbusy _
    | id | errcode | errpos | derTag | derLen | derVoff | derNext | derCnt => exact SameOperands.refl s
  | reg | der => exact SameOperands.gated hbusy _
  | rom | reserved => exact SameOperands.refl s

theorem SameOperands.busAccess {s : State} {a : BusAccess} (hbusy : s.busy = true)
    (hsrst : ∀ d : BusWord, a = .write 0x004 d → d.getLsbD 1 = false) : SameOperands s (s.busAccess a) := by
  cases a with
  | read addr =>
    obtain ⟨r, hr⟩ := busAccess_read s addr
    rw [hr]
    exact (SameOperands.refl s).respond r
  | write addr d =>
    cases hmis : misaligned addr with
    | true => rw [busAccess_misalignedWrite hmis]; exact (SameOperands.refl s).respond _
    | false =>
      rw [busAccess_alignedWrite hmis]
      refine (SameOperands.writePlace hbusy fun hctrl => ?_).respond _
      exact hsrst d (by rw [eq_csrAddr_of_placeOf (aligned_of_misaligned_eq_false hmis) hctrl]; rfl)

end Sys2Proof.Machine

/-! The statements about the host window (20_memory.md). -/

namespace Sys2Proof.Machine

/-- Settles O42: the access is answered before its place is looked at. -/
theorem misalignedAccessIsABusError : Obligations.MisalignedAccessIsABusError := by
  unfold Obligations.MisalignedAccessIsABusError
  intro s a d hbits
  have hmis : misaligned a = true := misaligned_iff.mpr hbits
  rw [hostStep_eq, hostStep_eq, busAccess_misalignedRead hmis, busAccess_misalignedWrite hmis]
  exact ⟨rfl, rfl⟩

/-- Settles O43, row by row of R68's table. -/
theorem busyGatesTheWindow : Obligations.BusyGatesTheWindow := by
  unfold Obligations.BusyGatesTheWindow
  intro s a d hbusy ha
  refine ⟨fun hreg => ?_, fun hgated => ?_, fun hreg hstatus => ?_, fun hignored => ?_, ?_, fun hkeep => ?_,
    fun hsrst => ?_⟩
  · exact hostStep_read_of_readPlace ha (by rw [placeOf_reg hreg]; exact if_pos hbusy)
  · exact hostStep_write_of_writePlace ha (writePlace_gated hbusy hgated d)
  · exact ⟨s.readPlace (placeOf a), hostStep_read_of_readPlace ha rfl,
      hostStep_read_of_readPlace ha (readPlace_withBusy ha hreg hstatus s false)⟩
  · exact hostStep_write_of_writePlace ha (writePlace_ignored hignored s d)
  · exact hostStep_writeCsr .status d s
  · have hwrite := hostStep_writeCsr .ctrl d s
    rw [State.writeCsr, writeCtrl_ie hkeep] at hwrite
    exact hwrite
  · have hwrite (s' : State) : hostStep (.write 0x004 d) s' = .next (s'.softReset.respond .writeDone) := by
      rw [← writeCtrl_srst hsrst]
      exact hostStep_writeCsr .ctrl d s'
    rw [hwrite, hwrite]
    rfl

/-- Settles O44: a read answers only; the write at each place is idempotent, and no write looks at the last answer. -/
theorem readsAndRepeatedWritesChangeNothing : Obligations.ReadsAndRepeatedWritesChangeNothing := by
  unfold Obligations.ReadsAndRepeatedWritesChangeNothing
  intro s a d hwf
  refine ⟨?_, fun t hcmd hstep => ?_⟩
  · obtain ⟨r, hr⟩ := busAccess_read s a
    exact ⟨r, by rw [hostStep_eq, hr]; rfl⟩
  · rw [hostStep_eq] at hstep ⊢
    rw [← Host.Outcome.next.inj hstep]
    cases hmis : misaligned a with
    | true => simp only [busAccess_misalignedWrite hmis]; rfl
    | false =>
      simp only [busAccess_alignedWrite hmis, writePlace_respond,
        writePlace_writePlace (aligned_of_misaligned_eq_false hmis) hcmd hwf]
      rfl

/-- Settles O45: the reserved place reads 0, and so does slot 7 as a constant; neither is written. -/
theorem reservedOffsetsReadZero : Obligations.ReservedOffsetsReadZero := by
  unfold Obligations.ReservedOffsetsReadZero
  intro s a d ha
  refine ⟨fun h => ?_, fun h => hostStep_write_of_writePlace ha (writePlace_ignored (Or.inr h.symm) s d)⟩
  rcases h with hreserved | hslot
  · exact hostStep_read_of_readPlace ha (by rw [placeOf_reserved hreserved]; rfl)
  · unfold Aligned at ha
    rw [hostStep_readRom (k := 7) (j := (a.toNat - 0x2E0) / 4) (by decide) (by omega) (by omega),
      show romSlot 7 = 0 from rfl, wordOfReg_zero]
    rfl

/-- Settles O46: the place is word j of register i, and the word operations are the eight words' bits. -/
theorem registerWordsAreBigEndian : Obligations.RegisterWordsAreBigEndian := by
  unfold Obligations.RegisterWordsAreBigEndian
  intro s i j a d hidle hj haddr
  obtain ⟨ha, hplace⟩ := placeOf_regWord hj haddr
  have hwrite := hostStep_write (s := s) (d := d) (misaligned_of_aligned ha) hplace
  have hread := hostStep_read (s := s) (misaligned_of_aligned ha) hplace
  rw [State.writePlace, gated_idle hidle] at hwrite
  rw [State.readPlace, if_neg (by simp [hidle])] at hread
  refine ⟨⟨_, hwrite, rfl, fun i' hne => ?_, fun k hk => ?_⟩, _, hread, fun k hk => getLsbD_wordOfReg _ _ _ hk⟩
  · rw [State.reg_respond, State.reg_setReg_other s hne.symm]
  · rw [State.reg_respond, State.reg_setReg_same, getLsbD_setWordOfReg _ _ hj _ _ hk]

/-- Settles O47: the place is word n of the buffer, and the word operations are its four bytes. -/
theorem derBufferWordsAreBigEndian : Obligations.DerBufferWordsAreBigEndian := by
  unfold Obligations.DerBufferWordsAreBigEndian
  intro s n a d _ haddr
  obtain ⟨ha, hplace⟩ := placeOf_derWord haddr
  have hwrite := hostStep_write (s := s) (d := d) (misaligned_of_aligned ha) hplace
  refine ⟨fun hidle => ?_, s.derWord (4 * n), hostStep_read (misaligned_of_aligned ha) hplace,
    fun b hb => extractLsb'_derWord s _ hb⟩
  rw [State.writePlace, gated_idle hidle] at hwrite
  refine ⟨_, hwrite, rfl, fun b hb => ?_, fun x hx => ?_⟩
  · rw [State.derByte_respond, derByte_writeWord_inside s _ d hb]
  · rw [State.derByte_respond, derByte_writeWord_outside s d hx]

/-- Settles O57: no access but a soft reset touches an operand, the command or BUSY. -/
theorem operandsAreStableWhileBusy : Obligations.OperandsAreStableWhileBusy := by
  unfold Obligations.OperandsAreStableWhileBusy
  intro s t a hbusy hstep hsrst
  rw [hostStep_eq] at hstep
  have hsame : SameOperands s t := Host.Outcome.next.inj hstep ▸ SameOperands.busAccess hbusy hsrst
  exact ⟨State.reg_congr hsame.regs, State.derByte_congr hsame.mem hsame.epoch, hsame.derPtr, hsame.derEnd, hsame.cmd,
    hsame.busy.trans hbusy⟩

end Sys2Proof.Machine

/-! Decoding and encoding are inverse to each other (30_encoding.md R90, R91, R94): a word is built from its fields, and
each format's checker answers on such a word. -/

namespace Sys2Proof

@[simp] theorem Modulus.ofBit_bit (m : Modulus) : Modulus.ofBit m.bit = m := by
  cases m <;> rfl

@[simp] theorem Modulus.bit_ofBit (b : Bool) : (Modulus.ofBit b).bit = b := by
  cases b <;> rfl

theorem modulusField_wordOf (opc : BitVec 8) (rd ra rb : RegIdx) (p : Bool) (m : Modulus) :
    modulusField (wordOf opc rd ra rb p m.bit) = m := by
  rw [modulusField, modulusBit_wordOf, Modulus.ofBit_bit]

/-- A word with RSV = 0 is built from its own fields (30_encoding.md R90). -/
theorem wordOf_fields {w : BusWord} (hrsv : rsvField w = 0) :
    wordOf (opcField w) (rdField w) (raField w) (rbField w) (parityField w) (modulusBit w) = w :=
  word_ext (opcField_wordOf _ _ _ _ _ _) (rdField_wordOf _ _ _ _ _ _) (raField_wordOf _ _ _ _ _ _)
    (rbField_wordOf _ _ _ _ _ _) ((rsvField_wordOf _ _ _ _ _ _).trans hrsv.symm) (parityField_wordOf _ _ _ _ _ _)
    (modulusBit_wordOf _ _ _ _ _ _)

/-! ### Each format's checker on a word built from its fields -/

theorem decodeFR3_wordOf (mk : Modulus → RegIdx → RegIdx → RegIdx → Instr) (opc : BitVec 8) (m : Modulus)
    (rd ra rb : RegIdx) : decodeFR3 mk (wordOf opc rd ra rb false m.bit) = .ok (mk m rd ra rb) :=
  decodeFR3_ok_iff.mpr ⟨parityField_wordOf _ _ _ _ _ _, by
    rw [modulusField_wordOf, rdField_wordOf, raField_wordOf, rbField_wordOf]⟩

theorem decodeFR2_wordOf (mk : Modulus → RegIdx → RegIdx → Instr) (opc : BitVec 8) (m : Modulus) (rd ra : RegIdx) :
    decodeFR2 mk (wordOf opc rd ra 0 false m.bit) = .ok (mk m rd ra) :=
  decodeFR2_ok_iff.mpr ⟨rbField_wordOf _ _ _ _ _ _, parityField_wordOf _ _ _ _ _ _, by
    rw [modulusField_wordOf, rdField_wordOf, raField_wordOf]⟩

theorem decodeFSQ_wordOf (mk : Bool → RegIdx → RegIdx → Instr) (opc : BitVec 8) (par : Bool) (rd ra : RegIdx) :
    decodeFSQ mk (wordOf opc rd ra 0 par false) = .ok (mk par rd ra) :=
  decodeFSQ_ok_iff.mpr ⟨rbField_wordOf _ _ _ _ _ _, modulusBit_wordOf _ _ _ _ _ _, by
    rw [parityField_wordOf, rdField_wordOf, raField_wordOf]⟩

theorem decodeFK_wordOf (mk : RegIdx → RegIdx → Instr) (opc : BitVec 8) (rd : RegIdx) {k : RegIdx}
    (hk : RegIdx.isSlot k = true) : decodeFK mk (wordOf opc rd k 0 false false) = .ok (mk rd k) :=
  decodeFK_ok_iff.mpr ⟨rbField_wordOf _ _ _ _ _ _, parityField_wordOf _ _ _ _ _ _, modulusBit_wordOf _ _ _ _ _ _, by
    rwa [raField_wordOf], by rw [rdField_wordOf, raField_wordOf]⟩

theorem decodePR3_wordOf (mk : RegIdx → RegIdx → RegIdx → Instr) (opc : BitVec 8) {rd ra rb : RegIdx}
    (heven : (RegIdx.isEven rd && RegIdx.isEven ra && RegIdx.isEven rb) = true) :
    decodePR3 mk (wordOf opc rd ra rb false false) = .ok (mk rd ra rb) :=
  decodePR3_ok_iff.mpr ⟨parityField_wordOf _ _ _ _ _ _, modulusBit_wordOf _ _ _ _ _ _, by
    rwa [rdField_wordOf, raField_wordOf, rbField_wordOf], by rw [rdField_wordOf, raField_wordOf, rbField_wordOf]⟩

theorem decodePR2_wordOf (mk : RegIdx → RegIdx → Instr) (opc : BitVec 8) {rd ra : RegIdx}
    (heven : (RegIdx.isEven rd && RegIdx.isEven ra) = true) :
    decodePR2 mk (wordOf opc rd ra 0 false false) = .ok (mk rd ra) :=
  decodePR2_ok_iff.mpr ⟨rbField_wordOf _ _ _ _ _ _, parityField_wordOf _ _ _ _ _ _, modulusBit_wordOf _ _ _ _ _ _, by
    rwa [rdField_wordOf, raField_wordOf], by rw [rdField_wordOf, raField_wordOf]⟩

theorem decodePRS_wordOf (mk : RegIdx → RegIdx → RegIdx → Instr) (opc : BitVec 8) {rd ra : RegIdx} (rb : RegIdx)
    (heven : (RegIdx.isEven rd && RegIdx.isEven ra) = true) :
    decodePRS mk (wordOf opc rd ra rb false false) = .ok (mk rd ra rb) :=
  decodePRS_ok_iff.mpr ⟨parityField_wordOf _ _ _ _ _ _, modulusBit_wordOf _ _ _ _ _ _, by
    rwa [rdField_wordOf, raField_wordOf], by rw [rdField_wordOf, raField_wordOf, rbField_wordOf]⟩

theorem decodeD1_wordOf (mk : RegIdx → Instr) (opc : BitVec 8) (rd : RegIdx) :
    decodeD1 mk (wordOf opc rd 0 0 false false) = .ok (mk rd) :=
  decodeD1_ok_iff.mpr ⟨raField_wordOf _ _ _ _ _ _, rbField_wordOf _ _ _ _ _ _, parityField_wordOf _ _ _ _ _ _,
    modulusBit_wordOf _ _ _ _ _ _, by rw [rdField_wordOf]⟩

theorem decodeD0_wordOf (c : Instr) (opc : BitVec 8) : decodeD0 c (wordOf opc 0 0 0 false false) = .ok c :=
  decodeD0_ok_iff.mpr ⟨rdField_wordOf _ _ _ _ _ _, raField_wordOf _ _ _ _ _ _, rbField_wordOf _ _ _ _ _ _,
    parityField_wordOf _ _ _ _ _ _, modulusBit_wordOf _ _ _ _ _ _, rfl⟩

/-! ### The round trip -/

/-- Building a word of a command and checking it: RSV is 0, so the opcode selects the checker. -/
theorem decode_wordOf (opc : BitVec 8) (rd ra rb : RegIdx) (p m : Bool) :
    decode (wordOf opc rd ra rb p m) = decodeOpcode (wordOf opc rd ra rb p m) :=
  if_neg (not_not_intro (rsvField_wordOf opc rd ra rb p m))

theorem decode_encode {i : Instr} (hwf : i.wellFormed = true) : decode (encode i) = .ok i := by
  cases i <;> simp only [encode, decode_wordOf, decodeOpcode, opcField_wordOf]
  case fadd | fsub | fmul | mmul | bred => exact decodeFR3_wordOf _ _ _ _ _ _
  case fneg | finv | fred => exact decodeFR2_wordOf _ _ _ _ _
  case fsqrt => exact decodeFSQ_wordOf _ _ _ _ _
  case ldc => exact decodeFK_wordOf _ _ _ hwf
  case padd => exact decodePR3_wordOf _ _ hwf
  case pdbl => exact decodePR2_wordOf _ _ hwf
  case pmul => exact decodePRS_wordOf _ _ _ hwf
  case dtlv | dseq | dbit => exact decodeD0_wordOf _ _
  case dint => exact decodeD1_wordOf _ _ _

/-- The table's opcode value as the word's OPC field. -/
theorem opcField_eq {w : BusWord} {n : Nat} (h : (opcField w).toNat = n) : opcField w = BitVec.ofNat 8 n :=
  BitVec.eq_of_toNat_eq (by rw [h, BitVec.toNat_ofNat, Nat.mod_eq_of_lt (h ▸ (opcField w).isLt)])

theorem encode_of_decode {w : BusWord} {i : Instr} (h : decode w = .ok i) : encode i = w := by
  obtain ⟨hrsv, h⟩ := decode_ok_iff.mp h
  rw [← wordOf_fields hrsv]
  unfold decodeOpcode at h
  split at h
  case h_1 hopc | h_2 hopc | h_4 hopc | h_5 hopc | h_9 hopc =>
    obtain ⟨hp, rfl⟩ := decodeFR3_ok_iff.mp h
    simp [encode, modulusField, opcField_eq hopc, hp]
  case h_3 hopc | h_6 hopc | h_8 hopc =>
    obtain ⟨hrb, hp, rfl⟩ := decodeFR2_ok_iff.mp h
    simp [encode, modulusField, opcField_eq hopc, hrb, hp]
  case h_7 hopc =>
    obtain ⟨hrb, hm, rfl⟩ := decodeFSQ_ok_iff.mp h
    simp [encode, opcField_eq hopc, hrb, hm]
  case h_10 hopc =>
    obtain ⟨hrb, hp, hm, _, rfl⟩ := decodeFK_ok_iff.mp h
    simp [encode, opcField_eq hopc, hrb, hp, hm]
  case h_11 hopc =>
    obtain ⟨hp, hm, _, rfl⟩ := decodePR3_ok_iff.mp h
    simp [encode, opcField_eq hopc, hp, hm]
  case h_12 hopc =>
    obtain ⟨hrb, hp, hm, _, rfl⟩ := decodePR2_ok_iff.mp h
    simp [encode, opcField_eq hopc, hrb, hp, hm]
  case h_13 hopc =>
    obtain ⟨hp, hm, _, rfl⟩ := decodePRS_ok_iff.mp h
    simp [encode, opcField_eq hopc, hp, hm]
  case h_14 hopc | h_16 hopc | h_17 hopc =>
    obtain ⟨hrd, hra, hrb, hp, hm, rfl⟩ := decodeD0_ok_iff.mp h
    simp [encode, opcField_eq hopc, hrd, hra, hrb, hp, hm]
  case h_15 hopc =>
    obtain ⟨hra, hrb, hp, hm, rfl⟩ := decodeD1_ok_iff.mp h
    simp [encode, opcField_eq hopc, hra, hrb, hp, hm]
  case h_18 => cases h

/-- Settles O1: RSV is 0, the opcode selects the command's own format, and the format's checker reads every field back. -/
theorem decodeOfEncode : Obligations.DecodeOfEncode := by
  unfold Obligations.DecodeOfEncode
  exact fun _ hwf => decode_encode hwf

/-- Settles O2: the format's checks fix every field of the word that its command does not carry. -/
theorem encodeOfDecode : Obligations.EncodeOfDecode := by
  unfold Obligations.EncodeOfDecode
  exact fun _ _ h => ⟨wellFormed_of_decode h, encode_of_decode h⟩

/-- Settles O4: each command is well-formed and encoded by its word, so decoding gives it back. -/
theorem workedEncodings : Obligations.WorkedEncodings := by
  unfold Obligations.WorkedEncodings
  intro x hx
  obtain ⟨hwf, hencode⟩ : x.2.wellFormed = true ∧ encode x.2 = x.1 := by revert x; decide
  exact ⟨hencode ▸ decode_encode hwf, hencode⟩

end Sys2Proof

/-! The match and mask table against the decoder (30_encoding.md R94, R95): masking a word masks its fields, and a row's
mask asks of the fields what its command's format asks. -/

namespace Sys2Proof

/-! ### Masking works field by field -/

theorem opcField_and (w w' : BusWord) : opcField (w &&& w') = opcField w &&& opcField w' := BitVec.extractLsb'_and

theorem rdField_and (w w' : BusWord) : rdField (w &&& w') = rdField w &&& rdField w' := BitVec.extractLsb'_and

theorem raField_and (w w' : BusWord) : raField (w &&& w') = raField w &&& raField w' := BitVec.extractLsb'_and

theorem rbField_and (w w' : BusWord) : rbField (w &&& w') = rbField w &&& rbField w' := BitVec.extractLsb'_and

theorem rsvField_and (w w' : BusWord) : rsvField (w &&& w') = rsvField w &&& rsvField w' := BitVec.extractLsb'_and

theorem parityField_and (w w' : BusWord) : parityField (w &&& w') = (parityField w && parityField w') :=
  BitVec.getLsbD_and

theorem modulusBit_and (w w' : BusWord) : modulusBit (w &&& w') = (modulusBit w && modulusBit w') :=
  BitVec.getLsbD_and

/-- Words are equal exactly when their fields are. -/
theorem word_eq_iff {w w' : BusWord} :
    w = w' ↔ opcField w = opcField w' ∧ rdField w = rdField w' ∧ raField w = raField w' ∧ rbField w = rbField w' ∧
      rsvField w = rsvField w' ∧ parityField w = parityField w' ∧ modulusBit w = modulusBit w' := by
  refine ⟨fun h => ?_, fun ⟨hopc, hrd, hra, hrb, hrsv, hp, hm⟩ => word_ext hopc hrd hra hrb hrsv hp hm⟩
  rw [h]
  exact ⟨rfl, rfl, rfl, rfl, rfl, rfl, rfl⟩

/-- The lowest bit of a register field masked out leaves 0 exactly for an even register (30_encoding.md R93). -/
theorem and_one_eq_zero_iff_isEven (i : RegIdx) : i &&& 1#4 = 0#4 ↔ RegIdx.isEven i = true := by
  revert i; decide

/-- A whole register field under the mask. -/
theorem and_fifteen (i : RegIdx) : i &&& 15#4 = i := BitVec.and_allOnes

/-- A used constant slot is the extra condition of LDC's row (30_encoding.md R94). -/
theorem isSlot_iff {k : RegIdx} : RegIdx.isSlot k = true ↔ k.toNat ≤ 6 := decide_eq_true_iff

/-! ### The rows -/

/-- What a row asks of the register fields, P and M of a word: 0 under its mask, and its extra condition. -/
def OpcodeRow.Admits (r : OpcodeRow) (w : BusWord) : Prop :=
  rdField w &&& rdField r.mask = 0 ∧ raField w &&& raField r.mask = 0 ∧ rbField w &&& rbField r.mask = 0 ∧
    (parityField w && parityField r.mask) = false ∧ (modulusBit w && modulusBit r.mask) = false ∧
    ∀ k ∈ r.maxK, (raField w).toNat ≤ k

/-- Every row's pattern is an opcode beside fields that are 0, and its mask covers OPC and RSV. -/
theorem opcodeRows_shape : ∀ r ∈ opcodeRows, r.pattern = wordOf (opcField r.pattern) 0 0 0 false false ∧
    opcField r.mask = BitVec.allOnes 8 ∧ rsvField r.mask = BitVec.allOnes 10 := by
  decide

/-- Selection without its match on the extra condition. -/
theorem selects_iff {r : OpcodeRow} {w : BusWord} :
    r.selects w = true ↔ w &&& r.mask = r.pattern ∧ ∀ k ∈ r.maxK, (raField w).toNat ≤ k := by
  unfold OpcodeRow.selects
  cases r.maxK <;> simp

theorem selects_iff_admits {r : OpcodeRow} (hr : r ∈ opcodeRows) (w : BusWord) :
    r.selects w = true ↔ opcField w = opcField r.pattern ∧ rsvField w = 0 ∧ r.Admits w := by
  obtain ⟨hpattern, hopc, hrsv⟩ := opcodeRows_shape r hr
  rw [selects_iff, hpattern, word_eq_iff]
  simp only [opcField_and, rdField_and, raField_and, rbField_and, rsvField_and, parityField_and, modulusBit_and,
    opcField_wordOf, rdField_wordOf, raField_wordOf, rbField_wordOf, rsvField_wordOf, parityField_wordOf,
    modulusBit_wordOf, hopc, hrsv, BitVec.and_allOnes, OpcodeRow.Admits]
  tauto

/-- The table's opcodes tell its rows apart. -/
theorem opcodeRows_opcode_inj :
    ∀ r ∈ opcodeRows, ∀ r' ∈ opcodeRows, opcField r.pattern = opcField r'.pattern → r = r' := by
  decide

/-- A word with a row's opcode meets the row's demands exactly when the opcode's checker answers a command: the fields of
the row's mask, evaluated, are the conditions of the command's format. -/
theorem admits_iff_decodeOpcode (w : BusWord) :
    ∀ r ∈ opcodeRows, opcField w = opcField r.pattern → (r.Admits w ↔ ∃ i, decodeOpcode w = .ok i) := by
  simp only [opcodeRows, List.forall_mem_cons, OpcodeRow.Admits]
  refine ⟨?fadd, ?fsub, ?fneg, ?fmul, ?mmul, ?finv, ?fsqrt, ?fred, ?bred, ?ldc, ?padd, ?pdbl, ?pmul, ?dtlv, ?dint,
    ?dseq, ?dbit, List.forall_mem_nil _⟩ <;>
    intro hopc <;> simp only [decodeOpcode, hopc] <;>
    unfold opcField rdField raField rbField parityField modulusBit
  case fadd | fsub | fmul | mmul | bred =>
    simp [decodeFR3_ok_iff, parityField]
  case fneg | finv | fred =>
    simp [decodeFR2_ok_iff, parityField, rbField, and_fifteen]
  case fsqrt =>
    simp [decodeFSQ_ok_iff, modulusBit, rbField, and_fifteen]
  case ldc =>
    simp [decodeFK_ok_iff, parityField, modulusBit, raField, rbField, and_fifteen, isSlot_iff]
  case padd =>
    simp [decodePR3_ok_iff, parityField, modulusBit, rdField, raField, rbField, and_one_eq_zero_iff_isEven,
      and_assoc, and_comm, and_left_comm]
  case pdbl =>
    simp [decodePR2_ok_iff, parityField, modulusBit, rdField, raField, rbField, and_fifteen,
      and_one_eq_zero_iff_isEven, and_assoc, and_comm, and_left_comm]
  case pmul =>
    simp [decodePRS_ok_iff, parityField, modulusBit, rdField, raField, and_one_eq_zero_iff_isEven,
      and_assoc, and_comm, and_left_comm]
  case dtlv | dseq | dbit =>
    simp [decodeD0_ok_iff, parityField, modulusBit, rdField, raField, rbField, and_fifteen]
  case dint =>
    simp [decodeD1_ok_iff, parityField, modulusBit, raField, rbField, and_fifteen]

/-- A row selects the words with its opcode that the decoder takes. -/
theorem selects_iff_legal {r : OpcodeRow} (hr : r ∈ opcodeRows) (w : BusWord) :
    r.selects w = true ↔ opcField w = opcField r.pattern ∧ ∃ i, decode w = .ok i := by
  simp only [decode_ok_iff, exists_and_left, selects_iff_admits hr]
  exact and_congr_right fun hopc => and_congr_right fun _ => admits_iff_decodeOpcode w r hr hopc

/-- The opcode of a legal word is the opcode of a row: every other opcode is reserved (30_encoding.md R96). -/
theorem exists_row_of_decodeOpcode {w : BusWord} {i : Instr} (h : decodeOpcode w = .ok i) :
    ∃ r ∈ opcodeRows, opcField w = opcField r.pattern := by
  have hopcodes : (opcField w).toNat ∈ opcodeRows.map fun r => (opcField r.pattern).toNat := by
    unfold decodeOpcode at h
    split at h
    case h_18 => cases h
    all_goals next _ hopc => rw [hopc]; decide
  obtain ⟨r, hr, heq⟩ := List.mem_map.mp hopcodes
  exact ⟨r, hr, BitVec.eq_of_toNat_eq heq.symm⟩

/-- Settles O3: a row selects the legal words of its opcode, and the table holds each opcode once. -/
theorem legalWordsAreTheTableRows : Obligations.LegalWordsAreTheTableRows := by
  unfold Obligations.LegalWordsAreTheTableRows
  refine fun w => ⟨⟨fun hlegal => ?_, fun ⟨r, hr, hsel⟩ => ((selects_iff_legal hr w).mp hsel).2⟩,
    fun r hr r' hr' hsel hsel' => opcodeRows_opcode_inj r hr r' hr' ?_⟩
  · obtain ⟨i, hdecode⟩ := hlegal
    obtain ⟨r, hr, hopc⟩ := exists_row_of_decodeOpcode (decode_ok_iff.mp hdecode).2
    exact ⟨r, hr, (selects_iff_legal hr w).mpr ⟨hopc, i, hdecode⟩⟩
  · exact ((selects_iff_legal hr w).mp hsel).1.symm.trans ((selects_iff_legal hr' w).mp hsel').1

end Sys2Proof

/-! An illegal word in flight (30_encoding.md R95, R96). -/

namespace Sys2Proof.Machine

/-- Settles O5: the engine's turn finds the word illegal and raises ILLEGAL(0), which changes the report alone. -/
theorem illegalWordsRaiseIllegal : Obligations.IllegalWordsRaiseIllegal := by
  unfold Obligations.IllegalWordsRaiseIllegal
  intro s e hbusy hturn hdecode
  calc step s = engineTurn { s with events := s.events.tail } := step_engine hturn
    _ = runCommand { s with events := s.events.tail } := engineTurn_busy hbusy
    _ = raised { s with events := s.events.tail } .illegal .none 0 := runCommand_illegal hdecode

end Sys2Proof.Machine

/-! What a command writes and what it leaves unchanged (30_encoding.md R92, 10_state.md R22, 20_memory.md R75), read off
the ways a command ends. -/

namespace Sys2Proof.Machine

/-- What no command writes: the buffer, the DER pointers, ID, CTRL, CMD, OVR and the model's own fields. -/
structure SameSurroundings (s t : State) : Prop where
  mem : t.mem = s.mem
  epoch : t.epoch = s.epoch
  id : t.id = s.id
  ie : t.ie = s.ie
  ovr : t.ovr = s.ovr
  cmd : t.cmd = s.cmd
  derPtr : t.derPtr = s.derPtr
  derEnd : t.derEnd = s.derEnd
  events : t.events = s.events
  resp : t.resp = s.resp

section

variable {i : Instr} {s t : State}

theorem Ends.sameSurroundings (h : Ends i s t) : SameSurroundings s t := by
  cases h with
  | error | field | point | dtlv | dint | dseq | dbit => exact ⟨rfl, rfl, rfl, rfl, rfl, rfl, rfl, rfl, rfl, rfl⟩

/-- A register that is no destination keeps its value, with or without an error. -/
theorem Ends.reg_eq (h : Ends i s t) {j : RegIdx} (hj : j ∉ i.dests) : t.reg j = s.reg j := by
  cases h with
  | error | dtlv | dseq | dbit => rfl
  | field rd r z hdests =>
    have hne : rd ≠ j := fun heq => hj (by simp [hdests, heq])
    rw [State.reg_complete, State.reg_setReg_other s hne]
  | point rd x y z hdests =>
    have hfst : rd ≠ j := fun heq => hj (by simp [hdests, heq])
    have hsnd : pairSnd rd ≠ j := fun heq => hj (by simp [hdests, ← heq, pairSnd])
    rw [State.reg_complete, State.reg_setPair, if_neg hsnd, if_neg hfst]
  | dint rd r l v n z g hi =>
    have hne : rd ≠ j := fun heq => hj (by simp [hi, Instr.dests, heq])
    rw [State.reg_complete, State.reg_setDer, State.reg_setReg_other s hne]

/-- Only a DER command writes the registers of an element (10_state.md R35). -/
theorem Ends.element_eq (h : Ends i s t) (hi : ∀ rd, i ∉ derCommands rd) :
    t.derTag = s.derTag ∧ t.derLen = s.derLen ∧ t.derVoff = s.derVoff ∧ t.derNext = s.derNext := by
  cases h with
  | error | field | point => exact ⟨rfl, rfl, rfl, rfl⟩
  | dtlv _ _ _ _ _ heq => exact absurd (by simp [derCommands, heq]) (hi 0)
  | dint rd _ _ _ _ _ _ heq => exact absurd (by simp [derCommands, heq]) (hi rd)
  | dseq _ _ _ _ _ heq => exact absurd (by simp [derCommands, heq]) (hi 0)
  | dbit _ _ _ _ heq => exact absurd (by simp [derCommands, heq]) (hi 0)

/-- Only DSEQ counts elements (42_der.md R210). -/
theorem Ends.derCnt_eq (h : Ends i s t) (hi : i ≠ .dseq) : t.derCnt = s.derCnt := by
  cases h with
  | error | field | point | dtlv | dint | dbit => rfl
  | dseq _ _ _ _ _ heq => exact absurd heq hi

/-- A command without error leaves ERRCODE and ERRPOS (60_exceptions.md R236, log entry 12). -/
theorem Ends.errorReport_eq (h : Ends i s t) (herr : t.err = false) :
    t.cause = s.cause ∧ t.detail = s.detail ∧ t.errpos = s.errpos := by
  cases h with
  | error => cases herr
  | field | point | dtlv | dint | dseq | dbit => exact ⟨rfl, rfl, rfl⟩

end

/-- Settles O12: every way a command ends writes its destination, the report and the DER result registers at most. -/
theorem commandsWriteOnlyTheirDestination : Obligations.CommandsWriteOnlyTheirDestination := by
  unfold Obligations.CommandsWriteOnlyTheirDestination
  intro i s t hexec
  have hends : Ends i s t := exec_ends i s t hexec
  have hsame : SameSurroundings s t := hends.sameSurroundings
  exact ⟨fun _ => hends.reg_eq, State.derByte_congr hsame.mem hsame.epoch, hsame.mem, hsame.epoch, hsame.id, hsame.ie,
    hsame.ovr, hsame.cmd, hsame.derPtr, hsame.derEnd, hsame.events, hsame.resp, hends.element_eq, hends.derCnt_eq,
    hends.errorReport_eq⟩

end Sys2Proof.Machine

/-! What a command reads of the registers: two runs from states that differ in registers only (30_encoding.md R92). -/

namespace Sys2Proof.Machine

/-- Two answers end alike: next states that differ in registers only, and without error not in the registers `ds`. -/
def EndAlike (ds : List RegIdx) (a a' : Result) : Prop :=
  ∃ t t', a = .next t ∧ a' = .next t' ∧ t' = t.replaceRegs t'.regs ∧
    (t.err = false → ∀ j ∈ ds, t'.reg j = t.reg j)

/-- A buffer byte does not depend on the register file. -/
@[simp] theorem State.derByte_replaceRegs (s : State) (r : Vector RegWord 16) :
    (s.replaceRegs r).derByte = s.derByte := rfl

/-! ### The shared operations, on a state and on the same state with another register file -/

section

variable {ds : List RegIdx} {s : State} {r : Vector RegWord 16} {i : RegIdx}

theorem raised_endAlike (c : Cause) (d : Detail) (pos : Offset) :
    EndAlike ds (raised s c d pos) (raised (s.replaceRegs r) c d pos) :=
  ⟨_, _, rfl, rfl, rfl, fun herr => nomatch herr⟩

theorem raisedFormat_endAlike (e : FormatError) : EndAlike ds (raisedFormat e s) (raisedFormat e (s.replaceRegs r)) :=
  raised_endAlike _ _ _

theorem completed_endAlike {t t' : State} (ht : t' = t.replaceRegs t'.regs) (hds : ∀ j ∈ ds, t'.reg j = t.reg j)
    (z rg : Bool) : EndAlike ds (completed t z rg) (completed t' z rg) :=
  ⟨_, _, rfl, rfl, congrArg (fun u : State => u.complete z rg) ht, fun _ => hds⟩

theorem setReg_endAlike (rd : RegIdx) (v : RegWord) (z rg : Bool) :
    EndAlike [rd] (completed (s.setReg rd v) z rg) (completed ((s.replaceRegs r).setReg rd v) z rg) :=
  completed_endAlike rfl (by simp) z rg

theorem writeField_endAlike (rd : RegIdx) (v : Nat) :
    EndAlike [rd] (writeField rd v s) (writeField rd v (s.replaceRegs r)) :=
  setReg_endAlike rd _ _ _

theorem writePoint_endAlike (rd : RegIdx) (S : Point) :
    EndAlike [rd, rd + 1] (writePoint rd S s) (writePoint rd S (s.replaceRegs r)) :=
  completed_endAlike rfl (by simp [State.reg_setPair, pairSnd]) _ _

theorem ite_endAlike {c : Prop} [Decidable c] {a b a' b' : Result} (h : EndAlike ds a a') (h' : EndAlike ds b b') :
    EndAlike ds (if c then a else b) (if c then a' else b') := by
  split_ifs
  · exact h
  · exact h'

theorem withField_endAlike {m : Nat} {k k' : Nat → Result} (hi : (s.replaceRegs r).reg i = s.reg i)
    (hk : ∀ x, EndAlike ds (k x) (k' x)) : EndAlike ds (withField m i s k) (withField m i (s.replaceRegs r) k') := by
  unfold withField State.regNat
  rw [hi]
  exact ite_endAlike (raised_endAlike _ _ _) (hk _)

theorem withPair_endAlike {k k' : Nat → Nat → Result} (hfst : (s.replaceRegs r).reg i = s.reg i)
    (hsnd : (s.replaceRegs r).reg (i + 1) = s.reg (i + 1)) (hk : ∀ x y, EndAlike ds (k x y) (k' x y)) :
    EndAlike ds (withPair i s k) (withPair i (s.replaceRegs r) k') :=
  withField_endAlike hfst fun x => withField_endAlike hsnd fun y => hk x y

theorem withOnCurve_endAlike {x y : Nat} {k k' : Point → Result} (hk : ∀ P, EndAlike ds (k P) (k' P)) :
    EndAlike ds (withOnCurve i x y s k) (withOnCurve i x y (s.replaceRegs r) k') :=
  ite_endAlike (hk _) (raised_endAlike _ _ _)

theorem withPoint_endAlike {k k' : Point → Result} (hfst : (s.replaceRegs r).reg i = s.reg i)
    (hsnd : (s.replaceRegs r).reg (i + 1) = s.reg (i + 1)) (hk : ∀ P, EndAlike ds (k P) (k' P)) :
    EndAlike ds (withPoint i s k) (withPoint i (s.replaceRegs r) k') :=
  withPair_endAlike hfst hsnd fun _ _ => withOnCurve_endAlike hk

theorem withParse_endAlike {α : Type} {p : Except FormatError α} {k k' : α → Result}
    (hk : ∀ a, EndAlike ds (k a) (k' a)) : EndAlike ds (withParse p s k) (withParse p (s.replaceRegs r) k') := by
  cases p with
  | error e => exact raisedFormat_endAlike e
  | ok a => exact hk a

theorem withElement_endAlike {k k' : Tlv → Result} (hk : ∀ a, EndAlike ds (k a) (k' a)) :
    EndAlike ds (withElement s k) (withElement (s.replaceRegs r) k') :=
  ite_endAlike (withParse_endAlike hk) (raisedFormat_endAlike _)

theorem withTagged_endAlike {tag : Byte} {k k' : Tlv → Result} (hk : ∀ a, EndAlike ds (k a) (k' a)) :
    EndAlike ds (withTagged tag s k) (withTagged tag (s.replaceRegs r) k') :=
  withElement_endAlike fun a => ite_endAlike (hk a) (raisedFormat_endAlike _)

end

/-! ### The commands -/

/-- A command ends alike from two register files that agree on its sources. -/
theorem exec_endAlike (i : Instr) (s : State) (r : Vector RegWord 16)
    (h : ∀ j ∈ i.sources, (s.replaceRegs r).reg j = s.reg j) :
    EndAlike i.dests (exec i s) (exec i (s.replaceRegs r)) := by
  cases i <;> simp only [Instr.sources, List.forall_mem_cons] at h <;> unfold exec
  case fadd | fsub | fmul | mmul =>
    obtain ⟨ha, hb, -⟩ := h
    exact withField_endAlike ha fun _ => withField_endAlike hb fun _ => writeField_endAlike _ _
  case fneg =>
    obtain ⟨ha, -⟩ := h
    exact withField_endAlike ha fun _ => writeField_endAlike _ _
  case finv | fsqrt =>
    obtain ⟨ha, -⟩ := h
    exact withField_endAlike ha fun _ => ite_endAlike (raised_endAlike _ _ _) (writeField_endAlike _ _)
  case fred =>
    obtain ⟨ha, -⟩ := h
    simp only [execFred, State.regNat, ha]
    exact writeField_endAlike _ _
  case bred =>
    obtain ⟨ha, hb, -⟩ := h
    simp only [execBred, State.regNat, ha, hb]
    exact writeField_endAlike _ _
  case ldc => exact setReg_endAlike _ _ _ _
  case padd =>
    obtain ⟨hax, hay, hbx, hby, -⟩ := h
    exact withPair_endAlike hax hay fun _ _ => withPair_endAlike hbx hby fun _ _ =>
      withOnCurve_endAlike fun _ => withOnCurve_endAlike fun _ => writePoint_endAlike _ _
  case pdbl =>
    obtain ⟨hx, hy, -⟩ := h
    exact withPoint_endAlike hx hy fun _ => writePoint_endAlike _ _
  case pmul =>
    obtain ⟨hx, hy, hk, -⟩ := h
    simp only [execPmul, State.regNat, hk]
    exact withPoint_endAlike hx hy fun _ => writePoint_endAlike _ _
  case dtlv => exact withElement_endAlike fun _ => completed_endAlike rfl (List.forall_mem_nil _) _ _
  case dint =>
    exact withTagged_endAlike fun _ => ite_endAlike (raisedFormat_endAlike _)
      (ite_endAlike (raisedFormat_endAlike _) (completed_endAlike rfl (by simp [Instr.dests]) _ _))
  case dseq =>
    exact withTagged_endAlike fun _ => withParse_endAlike fun _ =>
      completed_endAlike rfl (List.forall_mem_nil _) _ _
  case dbit =>
    exact withTagged_endAlike fun _ => ite_endAlike (raisedFormat_endAlike _)
      (completed_endAlike rfl (List.forall_mem_nil _) _ _)

/-- Settles O13: each operand read is a source's, so both runs take the same branches and write the same values. -/
theorem commandsReadOnlyTheirSources : Obligations.CommandsReadOnlyTheirSources := by
  unfold Obligations.CommandsReadOnlyTheirSources
  intro i s s' hsame hsources
  rw [hsame] at hsources ⊢
  exact exec_endAlike i s s'.regs hsources

end Sys2Proof.Machine


/-! The shared operations of the field commands in the terms of the claims (40_field.md R121, R124, 60_exceptions.md
R236). -/

namespace Sys2Proof.Machine

theorem raised_eq_failed (s : State) (c : Cause) (d : Detail) (pos : Offset) :
    raised s c d pos = .next (failed s c d pos) := rfl

theorem writeField_eq_wroteField (rd : RegIdx) (r : Nat) (s : State) :
    writeField rd r s = .next (wroteField s rd r) := rfl

theorem regNat_wroteField {r : Nat} (hr : r < 2 ^ 256) (rd : RegIdx) (s : State) :
    (wroteField s rd r).regNat rd = r := by
  have hreg : (wroteField s rd r).reg rd = BitVec.ofNat 256 r := State.reg_setReg_same s rd _
  rw [State.regNat, hreg, BitVec.toNat_ofNat, Nat.mod_eq_of_lt hr]

section

variable {m : Nat} {i ra rb : RegIdx} {s : State}

theorem withField_failed (k : Nat → Result) (h : m ≤ s.regNat i) :
    withField m i s k = .next (failed s .encoding .none (i.setWidth 12)) :=
  withField_error k h

/-- Two field operands below the modulus are handed on. -/
theorem withField_withField_ok (k : Nat → Nat → Result) (ha : s.regNat ra < m) (hb : s.regNat rb < m) :
    (withField m ra s fun a => withField m rb s fun b => k a b) = k (s.regNat ra) (s.regNat rb) := by
  rw [withField_ok _ ha, withField_ok _ hb]

/-- The second operand is checked once the first has passed. -/
theorem withField_withField_failed (k : Nat → Nat → Result) (ha : s.regNat ra < m) (hb : m ≤ s.regNat rb) :
    (withField m ra s fun a => withField m rb s fun b => k a b) =
      .next (failed s .encoding .none (rb.setWidth 12)) := by
  rw [withField_ok _ ha, withField_failed _ hb]

end

end Sys2Proof.Machine

/-! What each field command does with operands that pass its check (40_field.md R130 to R150). -/

namespace Sys2Proof.Machine

section

variable {m : Modulus} {rd ra rb : RegIdx} {s : State}

theorem exec_fadd_ok (ha : s.regNat ra < modulusValue m) (hb : s.regNat rb < modulusValue m) :
    exec (.fadd m rd ra rb) s = .next (wroteField s rd ((s.regNat ra + s.regNat rb) % modulusValue m)) :=
  withField_withField_ok (fun a b => writeField rd ((a + b) % modulusValue m) s) ha hb

theorem exec_fsub_ok (ha : s.regNat ra < modulusValue m) (hb : s.regNat rb < modulusValue m) :
    exec (.fsub m rd ra rb) s =
      .next (wroteField s rd (modInt ((s.regNat ra : Int) - s.regNat rb) (modulusValue m))) :=
  withField_withField_ok (fun a b => writeField rd (modInt ((a : Int) - b) (modulusValue m)) s) ha hb

theorem exec_fneg_ok (ha : s.regNat ra < modulusValue m) :
    exec (.fneg m rd ra) s = .next (wroteField s rd ((modulusValue m - s.regNat ra) % modulusValue m)) :=
  withField_ok (fun a => writeField rd ((modulusValue m - a) % modulusValue m) s) ha

theorem exec_fmul_ok (ha : s.regNat ra < modulusValue m) (hb : s.regNat rb < modulusValue m) :
    exec (.fmul m rd ra rb) s = .next (wroteField s rd (s.regNat ra * s.regNat rb % modulusValue m)) :=
  withField_withField_ok (fun a b => writeField rd (a * b % modulusValue m) s) ha hb

theorem exec_mmul_ok (ha : s.regNat ra < modulusValue m) (hb : s.regNat rb < modulusValue m) :
    exec (.mmul m rd ra rb) s =
      .next (wroteField s rd (montMul (s.regNat ra) (s.regNat rb) (modulusValue m))) :=
  withField_withField_ok (fun a b => writeField rd (montMul a b (modulusValue m)) s) ha hb

theorem exec_finv_pos (ha : s.regNat ra < modulusValue m) (hpos : 0 < s.regNat ra) :
    exec (.finv m rd ra) s = .next (wroteField s rd (invMod (s.regNat ra) (modulusValue m))) := by
  rw [exec_finv, execFinv, withField_ok _ ha, if_neg hpos.ne', writeField_eq_wroteField, invMod]

theorem exec_finv_zero (ha : s.regNat ra < modulusValue m) (hzero : s.regNat ra = 0) :
    exec (.finv m rd ra) s = .next (failed s .divZero .none (ra.setWidth 12)) := by
  rw [exec_finv, execFinv, withField_ok _ ha, if_pos hzero, raised_eq_failed]

theorem exec_fred_eq : exec (.fred m rd ra) s = .next (wroteField s rd (s.regNat ra % modulusValue m)) := rfl

theorem exec_bred_eq : exec (.bred m rd ra rb) s =
    .next (wroteField s rd ((s.regNat ra * 2 ^ 256 + s.regNat rb) % modulusValue m)) := rfl

end

/-- The candidate root of x mod p (40_field.md R142). -/
def sqrtCandidate (x : Nat) : Nat := powMod x sqrtExponent curveP

/-- Of a root c mod p and its negation the one of the wanted parity (40_field.md R142). -/
def rootOfParity (par : Bool) (c : Nat) : Nat := if c % 2 ≠ par.toNat then (curveP - c) % curveP else c

section

variable {par : Bool} {rd ra : RegIdx} {s : State}

theorem exec_fsqrt_root (ha : s.regNat ra < curveP)
    (hroot : sqrtCandidate (s.regNat ra) * sqrtCandidate (s.regNat ra) % curveP = s.regNat ra) :
    exec (.fsqrt par rd ra) s = .next (wroteField s rd (rootOfParity par (sqrtCandidate (s.regNat ra)))) := by
  rw [exec_fsqrt, execFsqrt, withField_ok _ ha]
  exact if_neg (not_not.mpr hroot)

theorem exec_fsqrt_noRoot (ha : s.regNat ra < curveP)
    (hroot : sqrtCandidate (s.regNat ra) * sqrtCandidate (s.regNat ra) % curveP ≠ s.regNat ra) :
    exec (.fsqrt par rd ra) s = .next (failed s .noSqrt .none (ra.setWidth 12)) := by
  rw [exec_fsqrt, execFsqrt, withField_ok _ ha]
  exact if_pos hroot

end

theorem domainConstants_ne_zero : ∀ v ∈ domainConstants, v ≠ 0 := by decide

theorem domainConstants_lt : ∀ v ∈ domainConstants, v < 2 ^ 256 := by decide

/-- LDC's Z = 0 says of every used slot what the other field commands' Z says of their result. -/
theorem exec_ldc_of_domainConstants {k : RegIdx} {v : Nat} (hv : domainConstants[k.toNat]? = some v) (rd : RegIdx)
    (s : State) : exec (.ldc rd k) s = .next (wroteField s rd v) := by
  have hne : v ≠ 0 := domainConstants_ne_zero v (List.mem_of_getElem? hv)
  have hz : zeroFlag v = false := decide_eq_false hne
  rw [exec_ldc, execLdc, (romSlot_of_domainConstants hv).2, ← writeField_eq_wroteField, writeField, hz]

end Sys2Proof.Machine

/-! The integers the field commands write (00_scope.md R9). -/

namespace Sys2Proof.Machine

theorem modInt_modEq (z : Int) {m : Nat} (hm : 0 < m) : (modInt z m : Int) ≡ z [ZMOD m] := by
  rw [modInt_cast z hm]
  exact Int.mod_modEq z m

theorem natCast_mod_modEq (n m : Nat) : ((n % m : Nat) : Int) ≡ n [ZMOD m] := by
  rw [Int.natCast_mod]
  exact Int.mod_modEq n m

/-- m − a is the negation of a mod m. -/
theorem sub_mod_modEq_neg {a m : Nat} (ha : a ≤ m) : (((m - a) % m : Nat) : Int) ≡ -a [ZMOD m] := by
  have hsub : ((m - a : Nat) : Int) ≡ -a [ZMOD m] := by
    rw [Nat.cast_sub ha]
    exact Int.modEq_iff_dvd.mpr ⟨-1, by ring⟩
  exact (natCast_mod_modEq (m - a) m).trans hsub

theorem mul_invMod_modEq {m : Modulus} {x : Nat} (hx : 0 < x) (hxm : x < modulusValue m) :
    x * invMod x (modulusValue m) ≡ 1 [MOD modulusValue m] := by
  have hprime : (modulusValue m).Prime := modulusValue_prime m
  have hone : 1 % modulusValue m = 1 := Nat.mod_eq_of_lt hprime.one_lt
  exact (mul_invMod hprime (modulusValue_lt m) hx hxm).trans hone.symm

theorem invMod_pos {m : Modulus} {x : Nat} (hx : 0 < x) (hxm : x < modulusValue m) :
    0 < invMod x (modulusValue m) := by
  refine Nat.pos_of_ne_zero fun hzero => ?_
  have h := mul_invMod (modulusValue_prime m) (modulusValue_lt m) hx hxm
  rw [hzero] at h
  simp at h

/-- Neither modulus divides the Montgomery radix. -/
theorem montRadix_mod_pos (m : Modulus) : 0 < montRadix % modulusValue m := by cases m <;> decide

/-- The Montgomery product times the radix is the product (40_field.md R136). -/
theorem montMul_mul_radix (a b : Nat) (m : Modulus) :
    montMul a b (modulusValue m) * montRadix ≡ a * b [MOD modulusValue m] := by
  have hinv := mul_invMod_modEq (montRadix_mod_pos m) (Nat.mod_lt montRadix (modulusValue_pos m))
  calc montMul a b (modulusValue m) * montRadix
      ≡ (a * b * invMod (montRadix % modulusValue m) (modulusValue m)) * (montRadix % modulusValue m)
          [MOD modulusValue m] := (Nat.mod_modEq _ _).mul (Nat.mod_modEq _ _).symm
    _ = a * b * (montRadix % modulusValue m * invMod (montRadix % modulusValue m) (modulusValue m)) := by ring
    _ ≡ a * b * 1 [MOD modulusValue m] := hinv.mul_left _
    _ = a * b := mul_one _

/-- Two registers one after the other, as an integer with the first as its high half (40_field.md R146). -/
theorem toNat_append_eq (x y : RegWord) : (x ++ y).toNat = x.toNat * 2 ^ 256 + y.toNat := by
  rw [BitVec.toNat_append, ← Nat.shiftLeft_add_eq_or_of_lt y.isLt, Nat.shiftLeft_eq]

/-! ### Square roots mod p (40_field.md R142) -/

theorem curveP_pos : 0 < curveP := modulusValue_pos .p

theorem sqrtCandidate_lt (x : Nat) : sqrtCandidate x < curveP := powMod_lt x (by decide) curveP_pos

/-- The candidate of a square is a root: with x = y², its square is y^(p+1) = y² by Fermat. -/
theorem sqrtCandidate_sq {x y : Nat} (hy : y * y ≡ x [MOD curveP]) :
    sqrtCandidate x * sqrtCandidate x ≡ x [MOD curveP] := by
  have hprime : Fact curveP.Prime := ⟨curveP_prime⟩
  have hx : (x : ZMod curveP) = (y : ZMod curveP) ^ 2 := by
    rw [← (ZMod.natCast_eq_natCast_iff _ _ _).mpr hy, Nat.cast_mul, sq]
  have hexp : 2 * sqrtExponent * 2 = curveP + 1 := by decide
  rw [← ZMod.natCast_eq_natCast_iff]
  calc ((sqrtCandidate x * sqrtCandidate x : Nat) : ZMod curveP)
      = ((y : ZMod curveP) ^ 2) ^ sqrtExponent * ((y : ZMod curveP) ^ 2) ^ sqrtExponent := by
        rw [Nat.cast_mul, sqrtCandidate, powMod_zmod x curveP (by decide), hx]
    _ = (y : ZMod curveP) ^ (2 * sqrtExponent * 2) := by rw [← pow_mul, ← pow_add, mul_two]
    _ = (y : ZMod curveP) ^ 2 := by rw [hexp, pow_succ, ZMod.pow_card, sq]
    _ = (x : ZMod curveP) := hx.symm

/-- The check of FSQRT passes exactly for the squares. -/
theorem sqrtCandidate_sq_mod_iff {x : Nat} (hx : x < curveP) :
    sqrtCandidate x * sqrtCandidate x % curveP = x ↔ ∃ y, y * y ≡ x [MOD curveP] := by
  have hmod : x % curveP = x := Nat.mod_eq_of_lt hx
  constructor
  · exact fun h => ⟨sqrtCandidate x, h.trans hmod.symm⟩
  · exact fun ⟨y, hy⟩ => Eq.trans (sqrtCandidate_sq hy) hmod

theorem rootOfParity_lt {par : Bool} {c : Nat} (hc : c < curveP) : rootOfParity par c < curveP := by
  unfold rootOfParity
  split_ifs
  · exact Nat.mod_lt _ curveP_pos
  · exact hc

/-- A number and its negation have the same square. -/
theorem rootOfParity_sq {par : Bool} {c : Nat} (hc : c < curveP) :
    rootOfParity par c * rootOfParity par c ≡ c * c [MOD curveP] := by
  unfold rootOfParity
  split_ifs
  · have hneg := sub_mod_modEq_neg hc.le
    rw [← Int.natCast_modEq_iff, Nat.cast_mul, Nat.cast_mul, ← neg_mul_neg (c : Int) c]
    exact hneg.mul hneg
  · rfl

/-- p is odd, so a nonzero number and its negation have opposite parities. -/
theorem rootOfParity_parity {par : Bool} {c : Nat} (hpos : 0 < c) (hc : c < curveP) :
    rootOfParity par c % 2 = par.toNat := by
  have hodd : curveP % 2 = 1 := by decide
  have hpar : par.toNat < 2 := Bool.toNat_lt par
  have hneg : (curveP - c) % curveP = curveP - c := Nat.mod_eq_of_lt (Nat.sub_lt curveP_pos hpos)
  unfold rootOfParity
  split_ifs with hwrong
  · omega
  · omega

/-- Of a nonzero number 0 is no root. -/
theorem pos_of_sq_modEq {x c : Nat} (hpos : 0 < x) (hx : x < curveP) (h : c * c ≡ x [MOD curveP]) : 0 < c := by
  refine Nat.pos_of_ne_zero fun hzero => ?_
  rw [hzero, Nat.ModEq, Nat.mod_eq_of_lt hx] at h
  simp at h
  omega

end Sys2Proof.Machine

/-! How a field command ends: with an error that has no detail, or with a reduced value written (40_field.md R122,
R124). -/

namespace Sys2Proof.Machine

/-- How a command can end that writes a number below the bound to x[rd]. -/
inductive FieldEnd (bound : Nat) (rd : RegIdx) (s : State) : State → Prop
  | error (c : Cause) (pos : Offset) : FieldEnd bound rd s (failed s c .none pos)
  | wrote (r : Nat) : r < bound → FieldEnd bound rd s (wroteField s rd r)

section

variable {bound m : Nat} {rd i : RegIdx} {s t : State}

theorem FieldEnd.regNat_lt (h : FieldEnd bound rd s t) (hbound : bound ≤ 2 ^ 256) (herr : t.err = false) :
    t.regNat rd < bound := by
  cases h with
  | error => cases herr
  | wrote r hr => rwa [regNat_wroteField (hr.trans_le hbound)]

theorem FieldEnd.flags (h : FieldEnd bound rd s t) (hbound : bound ≤ 2 ^ 256) :
    (t.err = false → (t.z = true ↔ t.regNat rd = 0) ∧ t.rg = false) ∧
      (t.err = true → t.z = false ∧ t.rg = false) := by
  cases h with
  | error => exact ⟨fun herr => (nomatch herr), fun _ => ⟨rfl, rfl⟩⟩
  | wrote r hr =>
    refine ⟨fun _ => ⟨?_, rfl⟩, fun herr => (nomatch herr)⟩
    rw [regNat_wroteField (hr.trans_le hbound)]
    exact decide_eq_true_iff

theorem writeField_fieldEnd {r : Nat} (hr : r < bound) (h : writeField rd r s = .next t) : FieldEnd bound rd s t := by
  rw [writeField_next h]
  exact .wrote r hr

theorem raised_fieldEnd {c : Cause} {pos : Offset} (h : raised s c .none pos = .next t) : FieldEnd bound rd s t := by
  rw [raised_next h]
  exact .error c pos

theorem withField_fieldEnd {k : Nat → Result}
    (hk : s.regNat i < m → k (s.regNat i) = .next t → FieldEnd bound rd s t) (h : withField m i s k = .next t) :
    FieldEnd bound rd s t := by
  rcases withField_next h with ⟨_, rfl⟩ | ⟨hi, h⟩
  · exact .error _ _
  · exact hk hi h

theorem withField_withField_fieldEnd {ra rb : RegIdx} {f : Nat → Nat → Nat} (hf : ∀ a b, f a b < bound)
    (h : (withField m ra s fun a => withField m rb s fun b => writeField rd (f a b) s) = .next t) :
    FieldEnd bound rd s t :=
  withField_fieldEnd (fun _ h => withField_fieldEnd (fun _ h => writeField_fieldEnd (hf _ _) h) h) h

end

/-- The field commands with a modulus select (30_encoding.md R94). -/
def modulusCommands (m : Modulus) (rd ra rb : RegIdx) : List Instr :=
  [.fadd m rd ra rb, .fsub m rd ra rb, .fneg m rd ra, .fmul m rd ra rb, .mmul m rd ra rb, .finv m rd ra,
    .fred m rd ra, .bred m rd ra rb]

theorem modulusCommands_fieldEnd {m : Modulus} {rd ra rb : RegIdx} {s t : State} :
    ∀ i ∈ modulusCommands m rd ra rb, exec i s = .next t → FieldEnd (modulusValue m) rd s t := by
  have hmod : ∀ n, n % modulusValue m < modulusValue m := fun n => Nat.mod_lt n (modulusValue_pos m)
  have hint : ∀ z, modInt z (modulusValue m) < modulusValue m := fun z => modInt_lt z (modulusValue_pos m)
  have hinv : ∀ x, invMod x (modulusValue m) < modulusValue m := fun x =>
    invMod_lt x (modulusValue_pos m) (modulusValue_lt m)
  simp only [modulusCommands, List.forall_mem_cons]
  refine ⟨fun h => ?fadd, fun h => ?fsub, fun h => ?fneg, fun h => ?fmul, fun h => ?mmul, fun h => ?finv,
    fun h => ?fred, fun h => ?bred, List.forall_mem_nil _⟩
  case fadd => exact withField_withField_fieldEnd (fun _ _ => hmod _) h
  case fsub => exact withField_withField_fieldEnd (fun _ _ => hint _) h
  case fneg =>
    rw [exec_fneg, execFneg] at h
    exact withField_fieldEnd (fun _ h => writeField_fieldEnd (hmod _) h) h
  case fmul => exact withField_withField_fieldEnd (fun _ _ => hmod _) h
  case mmul => exact withField_withField_fieldEnd (fun _ _ => hmod _) h
  case finv =>
    rw [exec_finv, execFinv] at h
    refine withField_fieldEnd (fun _ h => ?_) h
    split_ifs at h
    · exact raised_fieldEnd h
    · exact writeField_fieldEnd (hinv _) h
  case fred => exact writeField_fieldEnd (hmod _) h
  case bred => exact writeField_fieldEnd (hmod _) h

theorem fsqrt_fieldEnd {par : Bool} {rd ra : RegIdx} {s t : State} (h : exec (.fsqrt par rd ra) s = .next t) :
    FieldEnd curveP rd s t := by
  have hcheck := h
  rw [exec_fsqrt, execFsqrt] at hcheck
  rcases withField_next hcheck with ⟨_, rfl⟩ | ⟨ha, -⟩
  · exact .error _ _
  by_cases hroot : sqrtCandidate (s.regNat ra) * sqrtCandidate (s.regNat ra) % curveP = s.regNat ra
  · rw [exec_fsqrt_root ha hroot] at h
    injection h with h
    exact h ▸ .wrote _ (rootOfParity_lt (sqrtCandidate_lt _))
  · rw [exec_fsqrt_noRoot ha hroot] at h
    injection h with h
    exact h ▸ .error _ _

theorem ldc_fieldEnd {rd k : RegIdx} {s t : State} (hk : k.toNat ≤ 6) (h : exec (.ldc rd k) s = .next t) :
    FieldEnd (2 ^ 256) rd s t := by
  have hslot : k.toNat < domainConstants.length := Nat.lt_succ_of_le hk
  have hv : domainConstants[k.toNat]? = some domainConstants[k.toNat] := List.getElem?_eq_getElem hslot
  rw [exec_ldc_of_domainConstants hv] at h
  injection h with h
  exact h ▸ .wrote _ (domainConstants_lt _ (List.getElem_mem hslot))

end Sys2Proof.Machine

/-! The statements about the field commands (40_field.md). -/

namespace Sys2Proof.Machine

/-- Settles O14: the check of `ra` stands before everything else a command does, and the check of `rb` next; FRED and BRED
have neither. -/
theorem fieldOperandsAreCheckedInOrder : Obligations.FieldOperandsAreCheckedInOrder := by
  unfold Obligations.FieldOperandsAreCheckedInOrder
  intro m par rd ra rb s
  refine ⟨fun ha => ?first, fun ha hb => ?second, fun ha => ?fsqrt, ?unchecked⟩
  case first =>
    simp only [List.forall_mem_cons, exec_fadd, exec_fsub, exec_fneg, exec_fmul, exec_mmul, exec_finv]
    exact ⟨withField_failed _ ha, withField_failed _ ha, withField_failed _ ha, withField_failed _ ha,
      withField_failed _ ha, withField_failed _ ha, List.forall_mem_nil _⟩
  case second =>
    simp only [List.forall_mem_cons, exec_fadd, exec_fsub, exec_fmul, exec_mmul]
    exact ⟨withField_withField_failed _ ha hb, withField_withField_failed _ ha hb,
      withField_withField_failed _ ha hb, withField_withField_failed _ ha hb, List.forall_mem_nil _⟩
  case fsqrt =>
    rw [exec_fsqrt]
    exact withField_failed _ ha
  case unchecked =>
    simp only [List.forall_mem_cons]
    exact ⟨⟨_, exec_fred_eq, rfl⟩, ⟨_, exec_bred_eq, rfl⟩, List.forall_mem_nil _⟩

/-- Settles O15: each result is a remainder mod m of the integer its rule names. -/
theorem sumsAndDifferences : Obligations.SumsAndDifferences := by
  unfold Obligations.SumsAndDifferences
  intro m rd ra rb s ha hb
  have hm : 0 < modulusValue m := modulusValue_pos m
  refine ⟨⟨_, Nat.mod_lt _ hm, ?_, exec_fadd_ok ha hb⟩, ⟨_, modInt_lt _ hm, modInt_modEq _ hm, exec_fsub_ok ha hb⟩,
    ⟨_, Nat.mod_lt _ hm, sub_mod_modEq_neg ha.le, exec_fneg_ok ha⟩⟩
  rw [← Nat.cast_add]
  exact natCast_mod_modEq _ _

/-- Settles O16: R is invertible mod m, so the Montgomery product times R is the product. -/
theorem products : Obligations.Products := by
  unfold Obligations.Products
  intro m rd ra rb s ha hb
  have hm : 0 < modulusValue m := modulusValue_pos m
  exact ⟨⟨_, Nat.mod_lt _ hm, Nat.mod_modEq _ _, exec_fmul_ok ha hb⟩,
    ⟨_, Nat.mod_lt _ hm, montMul_mul_radix _ _ m, exec_mmul_ok ha hb⟩⟩

/-- Settles O17: the modulus is prime, so the power m − 2 of a nonzero element is its inverse. -/
theorem finvWritesTheInverse : Obligations.FinvWritesTheInverse := by
  unfold Obligations.FinvWritesTheInverse
  intro m rd ra s ha
  exact ⟨fun hpos => ⟨_, invMod_pos hpos ha, invMod_lt _ (modulusValue_pos m) (modulusValue_lt m),
    mul_invMod_modEq hpos ha, exec_finv_pos ha hpos⟩, exec_finv_zero ha⟩

/-- Settles O18: the candidate's square is x exactly if x is a square, and the negation of a nonzero root has the other
parity. -/
theorem fsqrtWritesTheRoot : Obligations.FsqrtWritesTheRoot := by
  unfold Obligations.FsqrtWritesTheRoot
  intro par rd ra s ha
  refine ⟨fun hsquare => ?_, fun hnone => exec_fsqrt_noRoot ha (mt (sqrtCandidate_sq_mod_iff ha).mp hnone)⟩
  obtain ⟨y, hy⟩ := hsquare
  have hlt : sqrtCandidate (s.regNat ra) < curveP := sqrtCandidate_lt _
  have hroot := sqrtCandidate_sq hy
  exact ⟨_, rootOfParity_lt hlt, (rootOfParity_sq hlt).trans hroot,
    fun hpos => rootOfParity_parity (pos_of_sq_modEq hpos ha hroot) hlt,
    exec_fsqrt_root ha ((sqrtCandidate_sq_mod_iff ha).mpr ⟨y, hy⟩)⟩

/-- Settles O19: the 512-bit integer of BRED is the concatenation of its two registers. -/
theorem reductionsWriteTheRemainder : Obligations.ReductionsWriteTheRemainder := by
  unfold Obligations.ReductionsWriteTheRemainder
  intro m rd ra rb s
  refine ⟨exec_fred_eq, ?_⟩
  rw [toNat_append_eq]
  exact exec_bred_eq

/-- Settles O20: the slots' contents are the constants written out, and none of them is 0. -/
theorem ldcLoadsTheConstant : Obligations.LdcLoadsTheConstant := by
  unfold Obligations.LdcLoadsTheConstant
  intro rd k v s hv
  exact ⟨exec_ldc_of_domainConstants hv rd s, decide_eq_false (domainConstants_ne_zero v (List.mem_of_getElem? hv))⟩

/-- Settles O21: without error each field command wrote a number below its bound, and LDC its slot. -/
theorem fieldResultsAreReduced : Obligations.FieldResultsAreReduced := by
  unfold Obligations.FieldResultsAreReduced
  intro m par rd ra rb k s t herr
  refine ⟨fun i hi hexec => ?_, fun hexec => ?_, fun hexec => ?_⟩
  · exact (modulusCommands_fieldEnd i hi hexec).regNat_lt (modulusValue_lt m).le herr
  · exact (fsqrt_fieldEnd hexec).regNat_lt (modulusValue_lt .p).le herr
  · rw [completed_next hexec, State.reg_complete, State.reg_setReg_same]

/-- Settles O22: an error leaves Z and RG 0, and otherwise Z is that of the number written. -/
theorem fieldFlags : Obligations.FieldFlags := by
  unfold Obligations.FieldFlags
  intro m par rd ra rb k s t hk i hi hexec
  have hcommand : i ∈ modulusCommands m rd ra rb ∨ i = .fsqrt par rd ra ∨ i = .ldc rd k := by
    simp only [modulusCommands, List.mem_cons, List.not_mem_nil] at hi ⊢
    tauto
  rcases hcommand with hmem | rfl | rfl
  · exact (modulusCommands_fieldEnd i hmem hexec).flags (modulusValue_lt m).le
  · exact (fsqrt_fieldEnd hexec).flags (modulusValue_lt .p).le
  · exact (ldc_fieldEnd hk hexec).flags le_rfl

end Sys2Proof.Machine

/-! Division in the field with p elements (00_scope.md R9, 41_point.md R161): the integers of the model are the values of
their residues. The section takes that p is prime as `Fact curveP.Prime`, which Mathlib's field structure asks for;
`curveP_prime` supplies it where a statement is settled. -/

namespace Sys2Proof.Machine

/-- Over an odd prime the power m − 2 is the inverse of Mathlib's field, that of 0 included. -/
theorem invMod_zmod {m : Nat} (hm : m.Prime) (hlt : m < 2 ^ 256) (htwo : 2 < m) (x : Nat) :
    ((invMod x m : Nat) : ZMod m) = (x : ZMod m)⁻¹ := by
  have hp : Fact m.Prime := ⟨hm⟩
  have hpow : ((invMod x m : Nat) : ZMod m) = (x : ZMod m) ^ (m - 2) := powMod_zmod x m (by omega)
  rcases eq_or_ne (x : ZMod m) 0 with hzero | hne
  · rw [hpow, hzero, inv_zero, zero_pow (by omega)]
  · refine hpow.trans (eq_inv_of_mul_eq_one_left ?_)
    rw [← pow_succ, show m - 2 + 1 = m - 1 by omega, ZMod.pow_card_sub_one_eq_one hne]

section

variable [Fact curveP.Prime]

theorem modInt_eq_val (z : Int) : modInt z curveP = (z : ZMod curveP).val := by
  rw [← Nat.cast_inj (R := Int), modInt_cast z curveP_pos, ZMod.val_intCast]

theorem divFp_eq_val (n d : Int) : divFp n d = ((n : ZMod curveP) / (d : ZMod curveP)).val := by
  rw [divFp, modInt_eq_val]
  congr 1
  push_cast
  rw [invMod_zmod curveP_prime (modulusValue_lt .p) (by decide), modInt_zmod d curveP_pos, div_eq_mul_inv]

/-- The quotient times the divisor is the dividend, unless the divisor is 0 mod p. -/
theorem divFp_mul_modEq {n d : Int} (hd : (d : ZMod curveP) ≠ 0) : (divFp n d : Int) * d ≡ n [ZMOD curveP] := by
  rw [← ZMod.intCast_eq_intCast_iff]
  push_cast
  rw [divFp_eq_val, ZMod.natCast_zmod_val, div_mul_cancel₀ _ hd]

theorem two_ne_zero_zmod : (2 : ZMod curveP) ≠ 0 := by
  have h : ((2 : Nat) : ZMod curveP) ≠ 0 := by
    rw [Ne, ZMod.natCast_eq_zero_iff]
    decide
  exact h

end

end Sys2Proof.Machine

/-! The curve as Mathlib's Weierstrass curve, and its points as points of the model (00_scope.md R14, R15,
10_state.md R24). -/

namespace Sys2Proof.Machine

open WeierstrassCurve

/-- The curve y² = x³ + a·x + b over the field with p elements. -/
def p256 : WeierstrassCurve.Affine (ZMod curveP) := ⟨0, 0, 0, curveA, curveB⟩

/-- A point of the Weierstrass curve as the model holds it: infinity, or its two coordinates below p. -/
def Point.ofCurve : p256.Point → Point
  | .zero => .inf
  | .some x y _ => .aff x.val y.val

@[simp] theorem Point.ofCurve_zero : ofCurve 0 = .inf := rfl

@[simp] theorem Point.ofCurve_some {x y : ZMod curveP} (h : p256.Nonsingular x y) :
    ofCurve (.some x y h) = .aff x.val y.val := rfl

theorem p256_negY (x y : ZMod curveP) : p256.negY x y = -y := by
  simp [Affine.negY, p256]

theorem p256_equation_iff {x y : ZMod curveP} :
    p256.Equation x y ↔ y * y = x * x * x + curveA * x + curveB := by
  rw [Affine.equation_iff]
  simp only [p256]
  ring_nf

theorem equation_natCast_iff {x y : Nat} :
    p256.Equation (x : ZMod curveP) y ↔ y * y ≡ x * x * x + curveA * x + curveB [MOD curveP] := by
  rw [p256_equation_iff, ← ZMod.natCast_eq_natCast_iff]
  push_cast
  rfl

/-- The curve is elliptic: 4a³ + 27b² is not 0 mod p. -/
theorem p256_discriminant_ne_zero : p256.Δ ≠ 0 := by
  have hdisc : p256.Δ = -((16 * (4 * curveA ^ 3 + 27 * curveB ^ 2) : Nat) : ZMod curveP) := by
    simp only [p256, WeierstrassCurve.Δ, WeierstrassCurve.b₂, WeierstrassCurve.b₄, WeierstrassCurve.b₆,
      WeierstrassCurve.b₈]
    push_cast
    ring
  rw [hdisc, neg_ne_zero, Ne, ZMod.natCast_eq_zero_iff]
  decide

theorem nonsingular_of_equation {x y : ZMod curveP} (h : p256.Equation x y) : p256.Nonsingular x y :=
  (p256.equation_iff_nonsingular_of_Δ_ne_zero p256_discriminant_ne_zero).mp h

theorem curveB_ne_zero_zmod : (curveB : ZMod curveP) ≠ 0 := by
  rw [Ne, ZMod.natCast_eq_zero_iff]
  decide

/-- No affine point of the curve is (0, 0), since b is not 0 mod p; so that pair is free to stand for infinity. -/
theorem coords_ne_zero_of_equation {x y : ZMod curveP} (h : p256.Equation x y) : ¬ (x.val = 0 ∧ y.val = 0) := by
  rw [ZMod.val_eq_zero, ZMod.val_eq_zero]
  rintro ⟨rfl, rfl⟩
  rw [p256_equation_iff] at h
  simp only [mul_zero, zero_add] at h
  exact curveB_ne_zero_zmod h.symm

theorem Point.ofPair_ofCurve (P : p256.Point) : ofPair (ofCurve P).xOut (ofCurve P).yOut = ofCurve P := by
  cases P with
  | zero => rfl
  | some x y h => exact if_neg (coords_ne_zero_of_equation h.1)

theorem Point.ofCurve_eq_inf_iff {P : p256.Point} : ofCurve P = .inf ↔ P = 0 := by
  cases P with
  | zero => exact iff_of_true rfl rfl
  | some x y h => exact iff_of_false nofun (Affine.Point.some_ne_zero h)

theorem Point.ofCurve_eq_inf_iff_coords (P : p256.Point) :
    ofCurve P = .inf ↔ (ofCurve P).xOut = 0 ∧ (ofCurve P).yOut = 0 := by
  cases P with
  | zero => exact iff_of_true rfl ⟨rfl, rfl⟩
  | some x y h => exact iff_of_false nofun (coords_ne_zero_of_equation h.1)

/-- The negation of a point has the same x, and p − y mod p as its y. -/
theorem Point.ofCurve_neg_coords [Fact curveP.Prime] (P : p256.Point) :
    (ofCurve (-P)).xOut = (ofCurve P).xOut ∧ (ofCurve (-P)).yOut = (curveP - (ofCurve P).yOut) % curveP := by
  cases P with
  | zero => exact ⟨rfl, (Nat.mod_self curveP).symm⟩
  | some x y h =>
    refine ⟨rfl, ?_⟩
    rw [Affine.Point.neg_some, ofCurve_some, ofCurve_some, p256_negY]
    exact ZMod.neg_val' y

/-- The coordinates of a point of the Weierstrass curve pass the claims' test for the curve. -/
theorem onCurve_ofCurve [Fact curveP.Prime] (P : p256.Point) :
    OnCurve (Point.ofCurve P).xOut (Point.ofCurve P).yOut := by
  cases P with
  | zero => exact ⟨curveP_pos, curveP_pos, Or.inl ⟨rfl, rfl⟩⟩
  | some x y h =>
    refine ⟨ZMod.val_lt x, ZMod.val_lt y, Or.inr (equation_natCast_iff.mp ?_)⟩
    rw [Point.ofCurve_some, Point.xOut, Point.yOut, ZMod.natCast_zmod_val, ZMod.natCast_zmod_val]
    exact h.1

/-- Whatever passes that test is a point of the Weierstrass curve. -/
theorem exists_ofCurve_of_onCurve {x y : Nat} (h : OnCurve x y) :
    ∃ P : p256.Point, x = (Point.ofCurve P).xOut ∧ y = (Point.ofCurve P).yOut := by
  obtain ⟨hx, hy, ⟨rfl, rfl⟩ | hcurve⟩ := h
  · exact ⟨0, rfl, rfl⟩
  · exact ⟨.some _ _ (nonsingular_of_equation (equation_natCast_iff.mpr hcurve)),
      (ZMod.val_natCast_of_lt hx).symm, (ZMod.val_natCast_of_lt hy).symm⟩

end Sys2Proof.Machine

/-! The model's group law is the group law of the Weierstrass curve, and it is the claims' relation (41_point.md
R161). -/

namespace Sys2Proof.Machine

open WeierstrassCurve

/-- The coordinates a chord gives solve the congruences of the third point. -/
theorem isChordPoint_chord (l x₁ y₁ x₂ : Nat) : IsChordPoint l x₁ y₁ x₂ (chord l x₁ y₁ x₂) :=
  ⟨_, _, rfl, modInt_lt _ curveP_pos, modInt_lt _ curveP_pos, modInt_modEq _ curveP_pos, modInt_modEq _ curveP_pos⟩

section

variable [Fact curveP.Prime]

theorem chord_val (l x₁ y₁ x₂ : ZMod curveP) :
    chord l.val x₁.val y₁.val x₂.val = .aff (p256.addX x₁ x₂ l).val (p256.addY x₁ x₂ y₁ l).val := by
  have hx : modInt ((l.val : Int) * l.val - x₁.val - x₂.val) curveP = (p256.addX x₁ x₂ l).val := by
    rw [modInt_eq_val]
    simp [p256, Affine.addX, sq]
  have hy : ((l.val * ((x₁.val : Int) - (p256.addX x₁ x₂ l).val) - y₁.val : Int) : ZMod curveP) =
      p256.addY x₁ x₂ y₁ l := by
    push_cast
    simp only [ZMod.natCast_zmod_val, Affine.addY, p256_negY, Affine.negAddY]
    ring
  simp only [chord, hx, modInt_eq_val, hy]

/-- The points that are their own negation are those with y = 0, as p is odd. -/
theorem eq_negY_iff {x y : ZMod curveP} : y = p256.negY x y ↔ y = 0 := by
  rw [p256_negY, eq_neg_iff_add_eq_zero, ← two_mul, mul_eq_zero, or_iff_right two_ne_zero_zmod]

/-- The rule's test for P = −Q. -/
theorem val_add_mod_eq_zero_iff {x₂ y₁ y₂ : ZMod curveP} :
    (y₁.val + y₂.val) % curveP = 0 ↔ y₁ = p256.negY x₂ y₂ := by
  rw [← ZMod.val_add, ZMod.val_eq_zero, p256_negY, eq_neg_iff_add_eq_zero]

theorem tangent_eq_slope {x y : ZMod curveP} (hy : y ≠ 0) :
    divFp (3 * (x.val : Int) * x.val + curveA) (2 * (y.val : Int)) = (p256.slope x x y y).val := by
  rw [divFp_eq_val, Affine.slope_of_Y_ne rfl (mt eq_negY_iff.mp hy), p256_negY]
  simp [p256, sq, two_mul, mul_assoc]

theorem secant_eq_slope {x₁ y₁ x₂ y₂ : ZMod curveP} (hx : x₁ ≠ x₂) :
    divFp ((y₁.val : Int) - y₂.val) ((x₁.val : Int) - x₂.val) = (p256.slope x₁ x₂ y₁ y₂).val := by
  rw [divFp_eq_val, Affine.slope_of_X_ne hx]
  simp

/-- Why no slope divides by zero: two points of the curve with the same x are equal or each other's negation. -/
theorem x_ne_of_not_self_of_not_neg {x₁ y₁ x₂ y₂ : ZMod curveP} (h₁ : p256.Equation x₁ y₁)
    (h₂ : p256.Equation x₂ y₂) (hself : ¬ (x₁ = x₂ ∧ y₁ = y₂)) (hneg : ¬ (x₁ = x₂ ∧ y₁ = p256.negY x₂ y₂)) :
    x₁ ≠ x₂ := by
  intro hx
  rcases Affine.Y_eq_of_X_eq h₁ h₂ hx with hy | hy
  · exact hself ⟨hx, hy⟩
  · exact hneg ⟨hx, hy⟩

theorem pointDbl_ofCurve (P : p256.Point) : pointDbl (.ofCurve P) = .ofCurve (P + P) := by
  cases P with
  | zero => rfl
  | some x y h =>
    simp only [Point.ofCurve_some, pointDbl, ZMod.val_eq_zero]
    split_ifs with hy
    · rw [Affine.Point.add_self_of_Y_eq (eq_negY_iff.mpr hy), Point.ofCurve_zero]
    · rw [Affine.Point.add_self_of_Y_ne (mt eq_negY_iff.mp hy), Point.ofCurve_some, tangent_eq_slope hy, chord_val]

/-- The cases of the rule are those of the curve's addition. -/
theorem pointAdd_ofCurve (P Q : p256.Point) : pointAdd (.ofCurve P) (.ofCurve Q) = .ofCurve (P + Q) := by
  cases P with
  | zero => exact congrArg Point.ofCurve (zero_add Q).symm
  | some x₁ y₁ h₁ =>
    cases Q with
    | zero => rfl
    | some x₂ y₂ h₂ =>
      simp only [Point.ofCurve_some, pointAdd, (ZMod.val_injective curveP).eq_iff,
        val_add_mod_eq_zero_iff (x₂ := x₂)]
      split_ifs with hneg hself
      · rw [Affine.Point.add_of_Y_eq hneg.1 hneg.2, Point.ofCurve_zero]
      · obtain ⟨rfl, rfl⟩ := hself
        exact pointDbl_ofCurve (.some x₁ y₁ h₁)
      · have hx : x₁ ≠ x₂ := x_ne_of_not_self_of_not_neg h₁.1 h₂.1 hself hneg
        rw [Affine.Point.add_of_X_ne hx, Point.ofCurve_some, secant_eq_slope hx, chord_val]

theorem isDouble_pointDbl (P : p256.Point) : IsDouble (.ofCurve P) (pointDbl (.ofCurve P)) := by
  cases P with
  | zero => rfl
  | some x y h =>
    simp only [Point.ofCurve_some, IsDouble, pointDbl]
    split_ifs with hy
    · rfl
    · refine ⟨_, divFp_mul_modEq ?_, isChordPoint_chord _ _ _ _⟩
      push_cast
      rw [ZMod.natCast_zmod_val]
      exact mul_ne_zero two_ne_zero_zmod (mt (ZMod.val_eq_zero y).mpr hy)

theorem isSum_pointAdd (P Q : p256.Point) : IsSum (.ofCurve P) (.ofCurve Q) (pointAdd (.ofCurve P) (.ofCurve Q)) := by
  cases P with
  | zero => rfl
  | some x₁ y₁ h₁ =>
    cases Q with
    | zero => rfl
    | some x₂ y₂ h₂ =>
      simp only [Point.ofCurve_some, IsSum, pointAdd]
      split_ifs with hneg hself
      · rfl
      · exact isDouble_pointDbl (.some x₁ y₁ h₁)
      · refine ⟨_, divFp_mul_modEq ?_, isChordPoint_chord _ _ _ _⟩
        rw [(ZMod.val_injective curveP).eq_iff, val_add_mod_eq_zero_iff (x₂ := x₂)] at hneg
        simp only [(ZMod.val_injective curveP).eq_iff] at hself
        simpa [sub_ne_zero] using x_ne_of_not_self_of_not_neg h₁.1 h₂.1 hself hneg

end

end Sys2Proof.Machine

/-! The ladder computes the multiple that repeated addition defines (41_point.md R172, R173). -/

namespace Sys2Proof.Machine

section

variable [Fact curveP.Prime]

theorem isMultiple_nsmul (k : Nat) (P : p256.Point) : IsMultiple k (.ofCurve P) (.ofCurve (k • P)) := by
  induction k with
  | zero => rw [zero_nsmul]; rfl
  | succ k ih =>
    refine ⟨_, ih, ?_⟩
    rw [succ_nsmul, ← pointAdd_ofCurve]
    exact isSum_pointAdd _ _

/-- One iteration takes the pair of n·P and (n + 1)·P to that of the multiple with one more bit. -/
theorem ladderStep_nsmul (b : Bool) (n : Nat) (P : p256.Point) :
    ladderStep b (.ofCurve (n • P), .ofCurve ((n + 1) • P)) =
      (.ofCurve ((2 * n + b.toNat) • P), .ofCurve ((2 * n + b.toNat + 1) • P)) := by
  cases b with
  | false =>
    simp only [ladderStep, pointAdd_ofCurve, pointDbl_ofCurve, ← add_nsmul, Bool.toNat_false, Bool.false_eq_true,
      ↓reduceIte]
    congr 3 <;> omega
  | true =>
    simp only [ladderStep, pointAdd_ofCurve, pointDbl_ofCurve, ← add_nsmul, Bool.toNat_true, ↓reduceIte]
    congr 3 <;> omega

/-- The loop's invariant: with n bits still to come, the pair holds the multiples by the bits of k above them. -/
theorem ladderBits_nsmul (k n : Nat) (P : p256.Point) :
    ladderBits k n (.ofCurve ((k / 2 ^ n) • P), .ofCurve ((k / 2 ^ n + 1) • P)) =
      (.ofCurve (k • P), .ofCurve ((k + 1) • P)) := by
  induction n with
  | zero => simp only [ladderBits, pow_zero, Nat.div_one]
  | succ n ih =>
    have hbit : 2 * (k / 2 ^ (n + 1)) + (k.testBit n).toNat = k / 2 ^ n := by
      rw [Nat.toNat_testBit, pow_succ, ← Nat.div_div_eq_div_mul, Nat.div_add_mod]
    rw [ladderBits, ladderStep_nsmul, hbit, ih]

theorem ladder_nsmul {k : Nat} (hk : k < 2 ^ 256) (P : p256.Point) : ladder k (.ofCurve P) = .ofCurve (k • P) := by
  have h := ladderBits_nsmul k 256 P
  rw [Nat.div_eq_of_lt hk, zero_nsmul, zero_add, one_nsmul] at h
  rw [ladder]
  exact congrArg Prod.fst h

theorem scalarMul_nsmul {k : Nat} (hk : k < 2 ^ 256) (P : p256.Point) :
    scalarMul k (.ofCurve P) = .ofCurve (k • P) := by
  unfold scalarMul
  split_ifs with h
  · rcases h with rfl | hinf
    · rw [zero_nsmul, Point.ofCurve_zero]
    · rw [Point.ofCurve_eq_inf_iff.mp hinf, nsmul_zero, Point.ofCurve_zero]
  · exact ladder_nsmul hk P

end

end Sys2Proof.Machine

/-! The checks of the point commands in the terms of the claims, and what the commands do once their operands pass
(41_point.md R160, R162). -/

namespace Sys2Proof.Machine

theorem writePoint_eq_wrotePoint (rd : RegIdx) (S : Point) (s : State) :
    writePoint rd S s = .next (wrotePoint s rd S) := by
  cases S with
  | inf => rfl
  | aff x y => rfl

/-- On reduced coordinates the model's test for the curve is the claims' one. -/
theorem onCurve_iff {x y : Nat} (hx : x < curveP) (hy : y < curveP) : onCurve x y = true ↔ OnCurve x y := by
  have hmod : modInt ((y : Int) * y - ((x : Int) * x * x + curveA * x + curveB)) curveP = 0 ↔
      y * y ≡ x * x * x + curveA * x + curveB [MOD curveP] := by
    rw [← Nat.cast_inj (R := Int), modInt_cast _ curveP_pos, ← Int.natCast_modEq_iff, Nat.cast_zero,
      ← Int.dvd_iff_emod_eq_zero, Int.modEq_iff_dvd, dvd_sub_comm]
    push_cast
    rfl
  rw [onCurve, decide_eq_true_iff, hmod, OnCurve, and_iff_right hx, and_iff_right hy]

section

variable {i : RegIdx} {s t : State}

theorem withPair_ok (k : Nat → Nat → Result) (hx : s.regNat i < curveP) (hy : s.regNat (i + 1) < curveP) :
    withPair i s k = k (s.regNat i) (s.regNat (i + 1)) :=
  withField_withField_ok k hx hy

theorem withPair_failed_fst (k : Nat → Nat → Result) (hx : curveP ≤ s.regNat i) :
    withPair i s k = .next (failed s .encoding .none (i.setWidth 12)) :=
  withField_failed _ hx

theorem withPair_failed_snd (k : Nat → Nat → Result) (hx : s.regNat i < curveP) (hy : curveP ≤ s.regNat (i + 1)) :
    withPair i s k = .next (failed s .encoding .none ((i + 1).setWidth 12)) :=
  withField_withField_failed k hx hy

theorem withOnCurve_ok (k : Point → Result) (h : PairOnCurve s i) :
    withOnCurve i (s.regNat i) (s.regNat (i + 1)) s k = k (pairPoint s i) :=
  if_pos ((onCurve_iff h.1 h.2.1).mpr h)

theorem withOnCurve_failed (k : Point → Result) (hx : s.regNat i < curveP) (hy : s.regNat (i + 1) < curveP)
    (h : ¬ PairOnCurve s i) :
    withOnCurve i (s.regNat i) (s.regNat (i + 1)) s k = .next (failed s .domain .none (i.setWidth 12)) :=
  if_neg (mt (onCurve_iff hx hy).mp h)

theorem withPoint_ok (k : Point → Result) (h : PairOnCurve s i) : withPoint i s k = k (pairPoint s i) :=
  (withPair_ok _ h.1 h.2.1).trans (withOnCurve_ok k h)

theorem withPoint_failed (k : Point → Result) (hx : s.regNat i < curveP) (hy : s.regNat (i + 1) < curveP)
    (h : ¬ PairOnCurve s i) : withPoint i s k = .next (failed s .domain .none (i.setWidth 12)) :=
  (withPair_ok _ hx hy).trans (withOnCurve_failed k hx hy h)

/-- An end without error shows that the point operand passed its checks. -/
theorem pairOnCurve_of_withPoint {k : Point → Result} (h : withPoint i s k = .next t) (herr : t.err = false) :
    PairOnCurve s i := by
  rcases withPair_next h with ⟨_, _, _, rfl⟩ | ⟨hx, hy, h⟩
  · cases herr
  rcases withOnCurve_next h with ⟨_, rfl⟩ | ⟨hcurve, -⟩
  · cases herr
  exact (onCurve_iff hx hy).mp hcurve

end

section

variable {rd ra rb : RegIdx} {s t : State}

/-- The checks of a command with one point operand, in their order. -/
theorem singlePoint_checks {c : Instr} {f : Point → Point}
    (hc : exec c s = withPoint ra s fun P => writePoint rd (f P) s) :
    (curveP ≤ s.regNat ra → exec c s = .next (failed s .encoding .none (ra.setWidth 12))) ∧
    (s.regNat ra < curveP → curveP ≤ s.regNat (ra + 1) →
      exec c s = .next (failed s .encoding .none ((ra + 1).setWidth 12))) ∧
    (s.regNat ra < curveP → s.regNat (ra + 1) < curveP → ¬ PairOnCurve s ra →
      exec c s = .next (failed s .domain .none (ra.setWidth 12))) ∧
    (PairOnCurve s ra → ∃ t, exec c s = .next t ∧ t.err = false) := by
  rw [hc]
  exact ⟨withPair_failed_fst _, withPair_failed_snd _, withPoint_failed _,
    fun h => ⟨_, (withPoint_ok _ h).trans (writePoint_eq_wrotePoint _ _ _), rfl⟩⟩

/-- The first coordinate of PADD that is not below p is the one its ENCODING error names. -/
theorem exec_padd_failed_field {n : Nat} {j : RegIdx} (hj : [ra, ra + 1, rb, rb + 1][n]? = some j)
    (hbefore : ∀ j' ∈ [ra, ra + 1, rb, rb + 1].take n, s.regNat j' < curveP) (hlarge : curveP ≤ s.regNat j) :
    exec (.padd rd ra rb) s = .next (failed s .encoding .none (j.setWidth 12)) := by
  rw [exec_padd, execPadd]
  match n, hj, hbefore with
  | 0, rfl, _ => exact withPair_failed_fst _ hlarge
  | 1, rfl, hbefore => exact withPair_failed_snd _ (hbefore ra (by simp)) hlarge
  | 2, rfl, hbefore =>
    rw [withPair_ok _ (hbefore ra (by simp)) (hbefore (ra + 1) (by simp)), withPair_failed_fst _ hlarge]
  | 3, rfl, hbefore =>
    rw [withPair_ok _ (hbefore ra (by simp)) (hbefore (ra + 1) (by simp)),
      withPair_failed_snd _ (hbefore rb (by simp)) hlarge]

/-- With all four coordinates below p, PADD comes to its curve checks. -/
theorem exec_padd_reduced (hra : s.regNat ra < curveP) (hra' : s.regNat (ra + 1) < curveP)
    (hrb : s.regNat rb < curveP) (hrb' : s.regNat (rb + 1) < curveP) :
    exec (.padd rd ra rb) s =
      withOnCurve ra (s.regNat ra) (s.regNat (ra + 1)) s fun P =>
        withOnCurve rb (s.regNat rb) (s.regNat (rb + 1)) s fun Q => writePoint rd (pointAdd P Q) s := by
  rw [exec_padd, execPadd, withPair_ok _ hra hra', withPair_ok _ hrb hrb']

theorem exec_padd_ok (ha : PairOnCurve s ra) (hb : PairOnCurve s rb) :
    exec (.padd rd ra rb) s = .next (wrotePoint s rd (pointAdd (pairPoint s ra) (pairPoint s rb))) := by
  rw [exec_padd_reduced ha.1 ha.2.1 hb.1 hb.2.1, withOnCurve_ok _ ha, withOnCurve_ok _ hb, writePoint_eq_wrotePoint]

theorem exec_pdbl_ok (ha : PairOnCurve s ra) :
    exec (.pdbl rd ra) s = .next (wrotePoint s rd (pointDbl (pairPoint s ra))) := by
  rw [exec_pdbl, execPdbl, withPoint_ok _ ha, writePoint_eq_wrotePoint]

theorem exec_pmul_ok (ha : PairOnCurve s ra) :
    exec (.pmul rd ra rb) s = .next (wrotePoint s rd (scalarMul (s.regNat rb % curveQ) (pairPoint s ra))) := by
  rw [exec_pmul, execPmul, withPoint_ok _ ha, writePoint_eq_wrotePoint]

/-- An end of PADD without error shows that both operands passed their checks. -/
theorem pairOnCurve_of_exec_padd (h : exec (.padd rd ra rb) s = .next t) (herr : t.err = false) :
    PairOnCurve s ra ∧ PairOnCurve s rb := by
  rw [exec_padd] at h
  rcases withPair_next h with ⟨_, _, _, rfl⟩ | ⟨hra, hra', h⟩
  · cases herr
  rcases withPair_next h with ⟨_, _, _, rfl⟩ | ⟨hrb, hrb', h⟩
  · cases herr
  rcases withOnCurve_next h with ⟨_, rfl⟩ | ⟨ha, h⟩
  · cases herr
  rcases withOnCurve_next h with ⟨_, rfl⟩ | ⟨hb, -⟩
  · cases herr
  exact ⟨(onCurve_iff hra hra').mp ha, (onCurve_iff hrb hrb').mp hb⟩

theorem reducedScalar_lt : s.regNat rb % curveQ < 2 ^ 256 :=
  (Nat.mod_lt _ (modulusValue_pos .q)).trans (modulusValue_lt .q)

end

end Sys2Proof.Machine

/-! Register pairs that hold points of the Weierstrass curve, and the point commands on them. -/

namespace Sys2Proof.Machine

/-- The pair at register i holds the coordinates of P. -/
def HoldsPoint (s : State) (i : RegIdx) (P : p256.Point) : Prop :=
  s.regNat i = (Point.ofCurve P).xOut ∧ s.regNat (i + 1) = (Point.ofCurve P).yOut

theorem HoldsPoint.pairPoint_eq {s : State} {i : RegIdx} {P : p256.Point} (h : HoldsPoint s i P) :
    pairPoint s i = .ofCurve P := by
  rw [pairPoint, h.1, h.2, Point.ofPair_ofCurve]

section

variable [Fact curveP.Prime] {s t : State} {i j rd ra rb : RegIdx} {P Q : p256.Point}

theorem pairOnCurve_iff : PairOnCurve s i ↔ ∃ P, HoldsPoint s i P := by
  refine ⟨exists_ofCurve_of_onCurve, fun ⟨P, hx, hy⟩ => ?_⟩
  rw [PairOnCurve, hx, hy]
  exact onCurve_ofCurve P

theorem HoldsPoint.pairOnCurve (h : HoldsPoint s i P) : PairOnCurve s i := pairOnCurve_iff.mpr ⟨P, h⟩

theorem HoldsPoint.neg (h : HoldsPoint s i P) (hx : s.regNat i = s.regNat j)
    (hy : s.regNat (j + 1) = (curveP - s.regNat (i + 1)) % curveP) : HoldsPoint s j (-P) := by
  obtain ⟨hxneg, hyneg⟩ := Point.ofCurve_neg_coords P
  rw [HoldsPoint, ← hx, hy, h.1, h.2]
  exact ⟨hxneg.symm, hyneg.symm⟩

theorem holdsPoint_wrotePoint (s : State) (rd : RegIdx) (P : p256.Point) :
    HoldsPoint (wrotePoint s rd (.ofCurve P)) rd P := by
  obtain ⟨hx, hy, -⟩ := onCurve_ofCurve P
  have hp : curveP < 2 ^ 256 := modulusValue_lt .p
  have hfst : (wrotePoint s rd (.ofCurve P)).reg rd = BitVec.ofNat 256 (Point.ofCurve P).xOut :=
    State.reg_setPair_fst s rd _ _
  have hsnd : (wrotePoint s rd (.ofCurve P)).reg (rd + 1) = BitVec.ofNat 256 (Point.ofCurve P).yOut :=
    State.reg_setPair_snd s rd _ _
  constructor
  · rw [State.regNat, hfst, BitVec.toNat_ofNat, Nat.mod_eq_of_lt (hx.trans hp)]
  · rw [State.regNat, hsnd, BitVec.toNat_ofNat, Nat.mod_eq_of_lt (hy.trans hp)]

theorem exec_padd_eq (ha : HoldsPoint s ra P) (hb : HoldsPoint s rb Q) :
    exec (.padd rd ra rb) s = .next (wrotePoint s rd (.ofCurve (P + Q))) := by
  rw [exec_padd_ok ha.pairOnCurve hb.pairOnCurve, ha.pairPoint_eq, hb.pairPoint_eq, pointAdd_ofCurve]

theorem exec_pdbl_eq (ha : HoldsPoint s ra P) :
    exec (.pdbl rd ra) s = .next (wrotePoint s rd (.ofCurve (P + P))) := by
  rw [exec_pdbl_ok ha.pairOnCurve, ha.pairPoint_eq, pointDbl_ofCurve]

theorem exec_pmul_eq (ha : HoldsPoint s ra P) :
    exec (.pmul rd ra rb) s = .next (wrotePoint s rd (.ofCurve ((s.regNat rb % curveQ) • P))) := by
  rw [exec_pmul_ok ha.pairOnCurve, ha.pairPoint_eq, scalarMul_nsmul reducedScalar_lt]

/-- Without error each point command wrote a point of the curve. -/
theorem pointCommands_wrotePoint :
    ∀ c ∈ [Instr.padd rd ra rb, .pdbl rd ra, .pmul rd ra rb], exec c s = .next t → t.err = false →
      ∃ P : p256.Point, t = wrotePoint s rd (.ofCurve P) := by
  simp only [List.forall_mem_cons]
  refine ⟨fun h herr => ?padd, fun h herr => ?pdbl, fun h herr => ?pmul, List.forall_mem_nil _⟩
  case padd =>
    obtain ⟨ha, hb⟩ := pairOnCurve_of_exec_padd h herr
    obtain ⟨P, hP⟩ := pairOnCurve_iff.mp ha
    obtain ⟨Q, hQ⟩ := pairOnCurve_iff.mp hb
    rw [exec_padd_eq hP hQ] at h
    injection h with h
    exact ⟨P + Q, h.symm⟩
  case pdbl =>
    obtain ⟨P, hP⟩ := pairOnCurve_iff.mp (pairOnCurve_of_withPoint h herr)
    rw [exec_pdbl_eq hP] at h
    injection h with h
    exact ⟨P + P, h.symm⟩
  case pmul =>
    obtain ⟨P, hP⟩ := pairOnCurve_iff.mp (pairOnCurve_of_withPoint h herr)
    rw [exec_pmul_eq hP] at h
    injection h with h
    exact ⟨(s.regNat rb % curveQ) • P, h.symm⟩

end

end Sys2Proof.Machine

/-! The statements about the point commands (41_point.md). -/

namespace Sys2Proof.Machine

/-- Settles O23: PADD checks its four coordinates and then its two points; the other two commands share one sequence of
checks. -/
theorem pointOperandsAreCheckedInOrder : Obligations.PointOperandsAreCheckedInOrder := by
  unfold Obligations.PointOperandsAreCheckedInOrder
  intro rd ra rb s
  refine ⟨fun n j => exec_padd_failed_field, fun hfields => ?padd, ?single, fun hx hy => ?infinity⟩
  case padd =>
    simp only [List.forall_mem_cons] at hfields
    obtain ⟨hra, hra', hrb, hrb', -⟩ := hfields
    refine ⟨?first, ?second, fun ha hb => ⟨_, exec_padd_ok ha hb, rfl⟩⟩
    all_goals rw [exec_padd_reduced hra hra' hrb hrb']
    case first => exact withOnCurve_failed _ hra hra'
    case second => exact fun ha hb => (withOnCurve_ok _ ha).trans (withOnCurve_failed _ hrb hrb' hb)
  case single =>
    simp only [List.forall_mem_cons]
    exact ⟨singlePoint_checks (f := pointDbl) rfl, singlePoint_checks (f := scalarMul (s.regNat rb % curveQ)) rfl,
      List.forall_mem_nil _⟩
  case infinity =>
    rw [PairOnCurve, hx, hy]
    exact ⟨curveP_pos, curveP_pos, Or.inl ⟨rfl, rfl⟩⟩

/-- Settles O24: two different points of the curve that are not each other's negation have different x, so the slope
exists. -/
theorem paddWritesTheSum : Obligations.PaddWritesTheSum := by
  unfold Obligations.PaddWritesTheSum
  intro rd ra rb s ha hb
  have hp : Fact curveP.Prime := ⟨curveP_prime⟩
  obtain ⟨P, hP⟩ := pairOnCurve_iff.mp ha
  obtain ⟨Q, hQ⟩ := pairOnCurve_iff.mp hb
  refine ⟨_, ?_, exec_padd_ok ha hb⟩
  rw [hP.pairPoint_eq, hQ.pairPoint_eq]
  exact isSum_pointAdd P Q

/-- Settles O25: p is odd, so the slope exists wherever y is not 0. -/
theorem pdblWritesTheDouble : Obligations.PdblWritesTheDouble := by
  unfold Obligations.PdblWritesTheDouble
  intro rd ra s ha
  have hp : Fact curveP.Prime := ⟨curveP_prime⟩
  obtain ⟨P, hP⟩ := pairOnCurve_iff.mp ha
  refine ⟨_, ?_, exec_pdbl_ok ha⟩
  rw [hP.pairPoint_eq]
  exact isDouble_pointDbl P

/-- Settles O26: repeated addition and the ladder both give the multiple in the group of the curve, by induction on the
scalar and on its bits. -/
theorem pmulWritesTheMultiple : Obligations.PmulWritesTheMultiple := by
  unfold Obligations.PmulWritesTheMultiple
  intro rd ra rb s ha
  have hp : Fact curveP.Prime := ⟨curveP_prime⟩
  obtain ⟨P, hP⟩ := pairOnCurve_iff.mp ha
  rw [hP.pairPoint_eq]
  exact ⟨_, isMultiple_nsmul _ P, exec_pmul_eq hP⟩

/-- Settles O27: PMUL reads its scalar through the remainder mod q only, and gives infinity where that remainder is 0 or
the point is infinity. -/
theorem scalarIsReducedFirst : Obligations.ScalarIsReducedFirst := by
  unfold Obligations.ScalarIsReducedFirst
  intro rd ra rb rb' s
  refine ⟨fun hcongr => ?congruent, fun ha hinf => ?infinity⟩
  case congruent =>
    have hscalar : s.regNat rb % curveQ = s.regNat rb' % curveQ := hcongr
    rw [exec_pmul, exec_pmul, execPmul, execPmul, hscalar]
  case infinity =>
    have hzero : s.regNat rb % curveQ = 0 ∨ pairPoint s ra = .inf := hinf
    rw [exec_pmul_ok ha, scalarMul, if_pos hzero]

/-- Settles O28: what a point command writes is an element of the group of the curve. -/
theorem pointResultsAreOnTheCurve : Obligations.PointResultsAreOnTheCurve := by
  unfold Obligations.PointResultsAreOnTheCurve
  intro rd ra rb s t i hi hexec herr
  have hp : Fact curveP.Prime := ⟨curveP_prime⟩
  obtain ⟨P, rfl⟩ := pointCommands_wrotePoint i hi hexec herr
  exact (holdsPoint_wrotePoint s rd P).pairOnCurve

/-- Settles O29: no affine point of the curve is (0, 0), so the pair written is (0, 0) exactly for infinity. -/
theorem pointFlags : Obligations.PointFlags := by
  unfold Obligations.PointFlags
  intro rd ra rb s t i hi hexec herr
  have hp : Fact curveP.Prime := ⟨curveP_prime⟩
  obtain ⟨P, rfl⟩ := pointCommands_wrotePoint i hi hexec herr
  obtain ⟨hx, hy⟩ := holdsPoint_wrotePoint s rd P
  rw [hx, hy, ← Point.ofCurve_eq_inf_iff_coords]
  exact ⟨decide_eq_true_iff, rfl⟩

/-- Settles O30: the laws of the group of the curve. -/
theorem paddGroupLaws : Obligations.PaddGroupLaws := by
  unfold Obligations.PaddGroupLaws
  intro rd ra rb s ha hb
  have hp : Fact curveP.Prime := ⟨curveP_prime⟩
  obtain ⟨P, hP⟩ := pairOnCurve_iff.mp ha
  obtain ⟨Q, hQ⟩ := pairOnCurve_iff.mp hb
  refine ⟨?comm, fun hinf => ?neutral, fun hx hy => ?inverse⟩
  case comm => rw [exec_padd_eq hP hQ, exec_padd_eq hQ hP, add_comm]
  case neutral =>
    rw [hQ.pairPoint_eq, Point.ofCurve_eq_inf_iff] at hinf
    rw [exec_padd_eq hP hQ, hinf, add_zero, hP.pairPoint_eq]
  case inverse => rw [exec_padd_eq hP (hP.neg hx hy), add_neg_cancel, Point.ofCurve_zero]

end Sys2Proof.Machine

/-! The operand of a DER command in the terms of the claims: the slice, its header, its element and the tag
(42_der.md R192 to R194). -/

namespace Sys2Proof

open Machine

theorem raisedFormat_eq_failed (e : FormatError) (s : State) :
    raisedFormat e s = .next (failed s .format e.detail (BitVec.ofNat 12 e.pos)) := rfl

theorem completed_setDer_eq_wroteDer (s : State) (tag : Byte) (len voff next : Nat) (z rg : Bool) :
    completed (s.setDer tag len voff next) z rg = .next (wroteDer s tag len voff next z rg) := rfl

/-- An offset kept in twelve bits is the slice start it came from. -/
theorem raisedFormat_derPtr (d : Detail) (s : State) :
    raisedFormat ⟨d, s.derPtr.toNat⟩ s = .next (failed s .format d s.derPtr) := by
  rw [raisedFormat_eq_failed, BitVec.ofNat_toNat, BitVec.setWidth_eq]

section

variable {s t : State} {a b : Tlv} {tag : Byte} {k : Tlv → Result}

theorem SliceElement.tlv_eq (h : SliceElement s a) :
    tlv s.derByte s.derPtr.toNat s.derEnd.toNat = .ok a := (tlv_ok_iff _ _ _ _).2 h.2

/-- A slice starts with one element at most. -/
theorem SliceElement.unique (ha : SliceElement s a) (hb : SliceElement s b) : a = b :=
  Except.ok.inj (ha.tlv_eq.symm.trans hb.tlv_eq)

/-- The value of a slice's element lies in the slice, after the header. -/
theorem SliceElement.value_mem_slice (h : SliceElement s a) :
    s.derPtr.toNat + 2 ≤ a.voff ∧ a.voff + a.len ≤ s.derEnd.toNat := by
  obtain ⟨-, hvoff, hnext, hend⟩ := tlv_ok h.tlv_eq
  exact ⟨hvoff, hnext ▸ hend⟩

/-- The length of a slice's element fits DER_LEN. -/
theorem SliceElement.len_le (h : SliceElement s a) : a.len ≤ 2048 := by
  obtain ⟨-, hend⟩ := h.1
  obtain ⟨-, hvalue⟩ := h.value_mem_slice
  omega

theorem withElement_badSlice (k : Tlv → Result) (h : ¬ SliceOk s) :
    withElement s k = .next (failed s .format .badSlice s.derPtr) :=
  (if_neg h).trans (raisedFormat_derPtr _ _)

theorem withElement_headerError {d : Detail} {pos : Nat} (k : Tlv → Result) (hs : SliceOk s)
    (h : IsHeaderError s.derByte s.derPtr.toNat s.derEnd.toNat d pos) :
    withElement s k = .next (failed s .format d (BitVec.ofNat 12 pos)) := by
  rw [withElement, if_pos (show s.sliceOk from hs), (tlv_error_iff _ _ _ _ _).2 h, withParse, raisedFormat_eq_failed]

theorem withElement_ok (k : Tlv → Result) (h : SliceElement s a) : withElement s k = k a := by
  rw [withElement, if_pos (show s.sliceOk from h.1), h.tlv_eq, withParse]

theorem withTagged_ok (k : Tlv → Result) (h : SliceElement s a) (htag : a.tag = tag) :
    withTagged tag s k = k a :=
  (withElement_ok _ h).trans (if_pos htag)

theorem withTagged_wrongTag (k : Tlv → Result) (h : SliceElement s a) (htag : a.tag ≠ tag) :
    withTagged tag s k = .next (failed s .format .wrongTag s.derPtr) :=
  (withElement_ok _ h).trans ((if_neg htag).trans (raisedFormat_derPtr _ _))

/-- A raised FORMAT error is no end without error. -/
theorem err_of_raisedFormat {e : FormatError} (h : raisedFormat e s = .next t) : t.err ≠ false := by
  rw [raisedFormat_next h, State.raise_err]
  exact Bool.noConfusion

/-- A command that ends without error went on with the slice's element. -/
theorem sliceElement_of_withElement (h : withElement s k = .next t) (herr : t.err = false) :
    ∃ a, SliceElement s a ∧ k a = .next t := by
  rcases withElement_next h with ⟨-, rfl⟩ | ⟨e, -, -, rfl⟩ | ⟨a, hs, ha, hk⟩
  · cases herr
  · cases herr
  · exact ⟨a, ⟨hs, (tlv_ok_iff _ _ _ _).1 ha⟩, hk⟩

theorem sliceElement_of_withTagged (h : withTagged tag s k = .next t) (herr : t.err = false) :
    ∃ a, SliceElement s a ∧ a.tag = tag ∧ k a = .next t := by
  obtain ⟨a, ha, hk⟩ := sliceElement_of_withElement h herr
  split_ifs at hk with htag
  · exact ⟨a, ha, htag, hk⟩
  · exact absurd herr (err_of_raisedFormat hk)

/-- Every DER command starts by taking the slice's element. -/
theorem derCommands_eq_withElement (rd : RegIdx) (s : State) :
    ∀ i ∈ derCommands rd, ∃ k, exec i s = withElement s k := by
  simp only [derCommands, List.forall_mem_cons]
  exact ⟨⟨_, rfl⟩, ⟨_, rfl⟩, ⟨_, rfl⟩, ⟨_, rfl⟩, List.forall_mem_nil _⟩

end

end Sys2Proof

/-! The signed value of an INTEGER, and what DINT writes of it (42_der.md R205). -/

namespace Sys2Proof

open Machine

/-- The first byte is the most significant one. -/
theorem beValue_succ_first (byte : Nat → Byte) (i n : Nat) :
    beValue byte i (n + 1) = (byte i).toNat * 256 ^ n + beValue byte (i + 1) n := by
  induction n with
  | zero => simp [beValue]
  | succ n ih => rw [beValue, ih, beValue, pow_succ, Nat.add_right_comm i 1 n, Nat.add_assoc i n 1]; ring

/-- The sign bit is the top bit of the first byte. -/
theorem isSignedValue_signedValue (byte : Nat → Byte) (v : Nat) {len : Nat} (hlen : 0 < len) :
    IsSignedValue byte v len (signedValue byte v len) := by
  obtain ⟨n, rfl⟩ := Nat.exists_eq_succ_of_ne_zero hlen.ne'
  have hrest := beValue_lt byte (v + 1) n
  have hvalue := beValue_succ_first byte v n
  have hbyte := (byte v).isLt
  have hpow : (2 : Int) ^ (8 * (n + 1)) = 256 ^ (n + 1) := by rw [pow_mul]; norm_num
  have hsucc : (256 : Int) ^ (n + 1) = 256 * ((256 ^ n : Nat) : Int) := by push_cast; ring
  unfold IsSignedValue signedValue
  rw [← beValue_eq, Nat.succ_eq_add_one, hpow]
  split_ifs with hneg
  · have hhigh : 128 * 256 ^ n ≤ (byte v).toNat * 256 ^ n := Nat.mul_le_mul_right _ hneg
    have hlow : ((byte v).toNat + 1) * 256 ^ n ≤ 256 * 256 ^ n := Nat.mul_le_mul_right _ (by omega)
    rw [Nat.add_mul] at hlow
    refine ⟨Int.modEq_iff_dvd.mpr ⟨1, by ring⟩, ?_, ?_⟩ <;> omega
  · have hhigh : ((byte v).toNat + 1) * 256 ^ n ≤ 128 * 256 ^ n := Nat.mul_le_mul_right _ (by omega)
    rw [Nat.add_mul] at hhigh
    refine ⟨Int.ModEq.refl _, ?_, ?_⟩ <;> omega

theorem IsSignedValue.unique {byte : Nat → Byte} {v len : Nat} {x y : Int} (hx : IsSignedValue byte v len x)
    (hy : IsSignedValue byte v len y) : x = y := by
  obtain ⟨hxmod, hxlo, hxhi⟩ := hx
  obtain ⟨hymod, hylo, hyhi⟩ := hy
  have hdvd : (256 ^ len : Int) ∣ x - y := (hymod.trans hxmod.symm).dvd
  have hlt : |x - y| < 256 ^ len := abs_lt.mpr ⟨by linarith, by linarith⟩
  exact sub_eq_zero.mp (Int.eq_zero_of_abs_lt_dvd hdvd hlt)

/-- RG of DINT in the terms of the claims. -/
theorem intOutOfRange_eq (val : Int) : intOutOfRange val = decide (val < 0 ∨ 2 ^ 256 ≤ val) := by
  rw [intOutOfRange, ← decide_not]
  exact decide_eq_decide.mpr (by omega)

/-- The value DINT writes in the terms of the claims. -/
theorem intRegValue_eq (val : Int) :
    intRegValue val = if val < 0 ∨ 2 ^ 256 ≤ val then 0 else BitVec.ofNat 256 val.toNat := by
  unfold intRegValue
  split_ifs with hin hout
  · omega
  · rw [← BitVec.ofInt_natCast, Int.toNat_of_nonneg hin.1]
  · rfl
  · omega

/-- A register holds a value in its range exactly. -/
theorem toNat_intRegValue {val : Int} (hlo : 0 ≤ val) (hhi : val < 2 ^ 256) :
    ((intRegValue val).toNat : Int) = val := by
  rw [intRegValue_eq, if_neg (by omega), BitVec.toNat_ofNat, Nat.mod_eq_of_lt (by omega), Int.toNat_of_nonneg hlo]

end Sys2Proof

/-! DSEQ's element loop and the walk over a sequence's content (42_der.md R210). -/

namespace Sys2Proof

open Machine

section

variable {byte : Nat → Byte} {stop i j n : Nat}

/-- An element has at least two bytes and ends inside its slice. -/
theorem IsElement.next_bounds {s e : Nat} {a : Tlv} (h : IsElement byte s e a) : s + 2 ≤ a.next ∧ a.next ≤ e := by
  obtain ⟨-, hvoff, hnext, hend⟩ := tlv_ok ((tlv_ok_iff byte s e a).2 h)
  omega

theorem IsWalk.le (h : IsWalk byte stop i j n) : i ≤ j := by
  induction h with
  | start => exact le_rfl
  | more _ helem ih =>
    have := helem.next_bounds
    omega

theorem countElements_element {fuel c : Nat} {a : Tlv} (h : IsElement byte i stop a) (hfuel : stop - i ≤ fuel) :
    countElements byte stop fuel i c = countElements byte stop fuel a.next (c + 1) := by
  have hbounds := h.next_bounds
  rw [countElements_while hfuel, if_pos (by omega), (tlv_ok_iff byte i stop a).2 h]

theorem countElements_headerError {fuel c : Nat} {d : Detail} {pos : Nat} (h : IsHeaderError byte i stop d pos)
    (hi : i < stop) (hfuel : stop - i ≤ fuel) : countElements byte stop fuel i c = .error ⟨d, pos⟩ := by
  rw [countElements_while hfuel, if_pos hi, (tlv_error_iff byte i stop d pos).2 h]

theorem countElements_stop (byte : Nat → Byte) (stop fuel c : Nat) : countElements byte stop fuel stop c = .ok c := by
  rw [countElements_while (by omega), if_neg (lt_irrefl stop)]

/-- The loop passes the elements of a walk and counts them. -/
theorem countElements_of_walk {fuel : Nat} (h : IsWalk byte stop i j n) (hfuel : stop - i ≤ fuel) :
    countElements byte stop fuel i 0 = countElements byte stop fuel j n := by
  induction h with
  | start => rfl
  | more hwalk helem ih =>
    have := hwalk.le
    rw [ih, countElements_element helem (by omega)]

/-- Without error the loop walked to the content's end. -/
theorem walk_of_countElements {fuel c : Nat} (h : countElements byte stop fuel j c = .ok n)
    (hwalk : IsWalk byte stop i j c) (hj : j ≤ stop) (hfuel : stop - j ≤ fuel) : IsWalk byte stop i stop n := by
  induction fuel generalizing j c with
  | zero =>
    obtain rfl : j = stop := by omega
    obtain rfl : c = n := Except.ok.inj h
    exact hwalk
  | succ fuel ih =>
    rw [countElements] at h
    split_ifs at h with hlt
    · split at h
      · cases h
      · next a ha =>
        have helem := (tlv_ok_iff byte j stop a).1 ha
        obtain ⟨hnext, hend⟩ := helem.next_bounds
        exact ih h (.more hwalk helem) hend (by omega)
    · obtain rfl : j = stop := by omega
      obtain rfl : c = n := Except.ok.inj h
      exact hwalk

end

end Sys2Proof

/-! What each DER command does once its header is good (42_der.md R200, R205, R210, R215). -/

namespace Sys2Proof

open Machine

/-- The state after DINT wrote the value of the INTEGER a and completed. -/
def wroteInt (s : State) (rd : RegIdx) (a : Tlv) (val : Int) : State :=
  { wroteDer s 0x02 a.len a.voff a.next (decide (val = 0)) (intOutOfRange val) with
    regs := s.regs.set rd.toNat (intRegValue val) rd.isLt }

/-- The state after DSEQ wrote the SEQUENCE a and its count, and completed. -/
def wroteSeq (s : State) (a : Tlv) (count : Nat) : State :=
  { wroteDer s 0x30 a.len a.voff a.next (decide (a.len = 0)) false with derCnt := BitVec.ofNat 12 count }

theorem regNat_wroteInt (s : State) (rd : RegIdx) (a : Tlv) (val : Int) :
    (wroteInt s rd a val).regNat rd = (intRegValue val).toNat :=
  congrArg BitVec.toNat (State.reg_setReg_same s rd _)

section

variable {rd : RegIdx} {s t : State} {a : Tlv}

/-! ### From the slice's element -/

theorem exec_dtlv_ok (h : SliceElement s a) :
    exec .dtlv s = .next (wroteDer s a.tag a.len a.voff a.next (decide (a.len = 0)) false) :=
  withElement_ok _ h

theorem exec_dint_empty (h : SliceElement s a) (htag : a.tag = 0x02) (hlen : a.len = 0) :
    exec (.dint rd) s = .next (failed s .format .emptyInt (BitVec.ofNat 12 a.voff)) :=
  (withTagged_ok _ h htag).trans (if_pos hlen)

theorem exec_dint_leadingZero (h : SliceElement s a) (htag : a.tag = 0x02)
    (hzero : LeadingZero s.derByte a.voff a.len) :
    exec (.dint rd) s = .next (failed s .format .nonminInt (BitVec.ofNat 12 a.voff)) := by
  have hlen : a.len ≠ 0 := by have := hzero.1; omega
  exact (withTagged_ok _ h htag).trans ((if_neg hlen).trans (if_pos hzero))

theorem exec_dint_ok {val : Int} (h : SliceElement s a) (htag : a.tag = 0x02) (hlen : 0 < a.len)
    (hzero : ¬ LeadingZero s.derByte a.voff a.len) (hval : IsSignedValue s.derByte a.voff a.len val) :
    exec (.dint rd) s = .next (wroteInt s rd a val) := by
  obtain rfl := hval.unique (isSignedValue_signedValue s.derByte a.voff hlen)
  exact (withTagged_ok _ h htag).trans ((if_neg hlen.ne').trans (if_neg hzero))

theorem exec_dseq_eq (h : SliceElement s a) (htag : a.tag = 0x30) :
    exec .dseq s = withParse (countElements s.derByte (a.voff + a.len) a.len a.voff 0) s
      fun count => .next (wroteSeq s a count) :=
  withTagged_ok _ h htag

theorem exec_dbit_badUnused (h : SliceElement s a) (htag : a.tag = 0x03)
    (hbad : a.len = 0 ∨ s.derByte a.voff ≠ 0) :
    exec .dbit s = .next (failed s .format .badUnused (BitVec.ofNat 12 a.voff)) :=
  (withTagged_ok _ h htag).trans (if_pos hbad)

theorem exec_dbit_ok (h : SliceElement s a) (htag : a.tag = 0x03) (hbad : ¬ (a.len = 0 ∨ s.derByte a.voff ≠ 0)) :
    exec .dbit s = .next (wroteDer s 0x03 (a.len - 1) (a.voff + 1) a.next (decide (a.len - 1 = 0)) false) :=
  (withTagged_ok _ h htag).trans (if_neg hbad)

/-! ### From an end without error -/

theorem exec_dtlv_noError (h : exec .dtlv s = .next t) (herr : t.err = false) :
    ∃ a, SliceElement s a ∧ t = wroteDer s a.tag a.len a.voff a.next (decide (a.len = 0)) false := by
  obtain ⟨a, ha, hk⟩ := sliceElement_of_withElement h herr
  exact ⟨a, ha, completed_next hk⟩

theorem exec_dint_noError (h : exec (.dint rd) s = .next t) (herr : t.err = false) :
    ∃ a, SliceElement s a ∧ a.tag = 0x02 ∧ 0 < a.len ∧ t = wroteInt s rd a (signedValue s.derByte a.voff a.len) := by
  obtain ⟨a, ha, htag, hk⟩ := sliceElement_of_withTagged h herr
  split_ifs at hk with hlen hzero
  · exact absurd herr (err_of_raisedFormat hk)
  · exact absurd herr (err_of_raisedFormat hk)
  · exact ⟨a, ha, htag, Nat.pos_of_ne_zero hlen, completed_next hk⟩

theorem exec_dseq_noError (h : exec .dseq s = .next t) (herr : t.err = false) :
    ∃ a count, SliceElement s a ∧ a.tag = 0x30 ∧
      countElements s.derByte (a.voff + a.len) a.len a.voff 0 = .ok count ∧ t = wroteSeq s a count := by
  obtain ⟨a, ha, htag, hk⟩ := sliceElement_of_withTagged h herr
  rcases withParse_next hk with ⟨e, -, rfl⟩ | ⟨count, hcount, hk⟩
  · cases herr
  · exact ⟨a, count, ha, htag, hcount, completed_next hk⟩

theorem exec_dbit_noError (h : exec .dbit s = .next t) (herr : t.err = false) :
    ∃ a, SliceElement s a ∧
      t = wroteDer s 0x03 (a.len - 1) (a.voff + 1) a.next (decide (a.len - 1 = 0)) false := by
  obtain ⟨a, ha, -, hk⟩ := sliceElement_of_withTagged h herr
  split_ifs at hk with hbad
  · exact absurd herr (err_of_raisedFormat hk)
  · exact ⟨a, ha, completed_next hk⟩

end

/-! ### The flags -/

/-- A length inside the buffer is 0 exactly if DER_LEN is. -/
theorem ofNat_derLen_eq_zero_iff {len : Nat} (h : len ≤ 2048) : BitVec.ofNat 12 len = 0 ↔ len = 0 := by
  rw [← BitVec.toNat_inj, BitVec.toNat_ofNat, Nat.mod_eq_of_lt (by omega)]
  rfl

/-- Z says that DER_LEN is 0, and RG is 0, where a command wrote its length and the length's zero flag (R195). -/
theorem lengthFlags {t : State} {len : Nat} (hle : len ≤ 2048) (hlen : t.derLen = BitVec.ofNat 12 len)
    (hz : t.z = decide (len = 0)) (hrg : t.rg = false) : (t.z = true ↔ t.derLen = 0) ∧ t.rg = false := by
  rw [hz, hlen, ofNat_derLen_eq_zero_iff hle]
  exact ⟨decide_eq_true_iff, hrg⟩

theorem lengthCommands_flags {s t : State} (herr : t.err = false) :
    ∀ i ∈ [Instr.dtlv, .dseq, .dbit], exec i s = .next t → (t.z = true ↔ t.derLen = 0) ∧ t.rg = false := by
  simp only [List.forall_mem_cons]
  refine ⟨fun h => ?dtlv, fun h => ?dseq, fun h => ?dbit, List.forall_mem_nil _⟩
  case dtlv =>
    obtain ⟨a, ha, rfl⟩ := exec_dtlv_noError h herr
    exact lengthFlags ha.len_le rfl rfl rfl
  case dseq =>
    obtain ⟨a, count, ha, -, -, rfl⟩ := exec_dseq_noError h herr
    exact lengthFlags ha.len_le rfl rfl rfl
  case dbit =>
    obtain ⟨a, ha, rfl⟩ := exec_dbit_noError h herr
    exact lengthFlags ((Nat.sub_le _ _).trans ha.len_le) rfl rfl rfl

/-- RG says that a register cannot hold the value, and Z that the value is 0 (R205). -/
theorem wroteInt_flags (s : State) (rd : RegIdx) (a : Tlv) (val : Int) :
    ((wroteInt s rd a val).rg = true ↔ val < 0 ∨ 2 ^ 256 ≤ val) ∧ ((wroteInt s rd a val).z = true ↔ val = 0) := by
  have hrg : (wroteInt s rd a val).rg = decide (val < 0 ∨ 2 ^ 256 ≤ val) := intOutOfRange_eq val
  exact ⟨by rw [hrg, decide_eq_true_iff], decide_eq_true_iff⟩

/-- The register holds 0 if RG = 1, and otherwise the value (R205). -/
theorem wroteInt_flags_regNat (s : State) (rd : RegIdx) (a : Tlv) (val : Int) :
    ((wroteInt s rd a val).rg = true → (wroteInt s rd a val).z = false ∧ (wroteInt s rd a val).regNat rd = 0) ∧
    ((wroteInt s rd a val).rg = false → ((wroteInt s rd a val).z = true ↔ (wroteInt s rd a val).regNat rd = 0)) := by
  obtain ⟨hrg, hz⟩ := wroteInt_flags s rd a val
  rw [hz, ← Bool.not_eq_true, ← Bool.not_eq_true, hrg, hz, regNat_wroteInt]
  refine ⟨fun hout => ⟨by omega, ?_⟩, fun hin => ?_⟩
  · rw [intRegValue_eq, if_pos hout]
    rfl
  · have := toNat_intRegValue (val := val) (by omega) (by omega)
    omega

end Sys2Proof

/-! What a DER command reads of the buffer: two runs from states that differ in buffer bytes outside the slice only
(42_der.md R190). -/

namespace Sys2Proof.Machine

/-- The state with another DER buffer and nothing else changed. -/
def State.replaceBuffer (s : State) (m : Memory) (epoch : Nat) : State := { s with mem := m, epoch := epoch }

/-- Two answers end alike outside the buffer: next states that differ in its bytes only. -/
def EndAlikeOffBuffer (r r' : Result) : Prop :=
  ∃ t t', r = .next t ∧ r' = .next t' ∧ t' = t.replaceBuffer t'.mem t'.epoch

/-! ### The parser, on two buffers that agree on the slice -/

section

variable {byte byte' : Nat → Byte} {s e : Nat}

theorem tlvLong_congr {c : Nat} (hbytes : ∀ j, s ≤ j → j < e → byte' j = byte j) (hc : 0 < c) :
    tlvLong byte' s e c = tlvLong byte s e c := by
  unfold tlvLong
  by_cases hfit : s + 2 + c > e
  · rw [if_pos hfit, if_pos hfit]
  · rw [if_neg hfit, if_neg hfit, hbytes s (by omega) (by omega), hbytes (s + 2) (by omega) (by omega),
      beValue_congr (s + 2) c fun j hlo hhi => hbytes j (by omega) (by omega)]

theorem tlv_congr (hbytes : ∀ j, s ≤ j → j < e → byte' j = byte j) : tlv byte' s e = tlv byte s e := by
  unfold tlv
  by_cases hshort : e - s < 2
  · rw [if_pos hshort, if_pos hshort]
  rw [if_neg hshort, if_neg hshort, hbytes s (by omega) (by omega), hbytes (s + 1) (by omega) (by omega)]
  have hlt := (byte (s + 1)).isLt
  dsimp only
  split_ifs with hform hindef
  · rfl
  · rfl
  · exact tlvLong_congr hbytes (by rw [and_0x7F _ (by omega) hlt]; omega)

theorem countElements_congr {stop : Nat} (fuel i c : Nat) (hbytes : ∀ j, i ≤ j → j < stop → byte' j = byte j) :
    countElements byte' stop fuel i c = countElements byte stop fuel i c := by
  induction fuel generalizing i c with
  | zero => rfl
  | succ fuel ih =>
    rw [countElements, countElements, tlv_congr hbytes]
    cases hparse : tlv byte i stop with
    | error x => rfl
    | ok a =>
      obtain ⟨-, hvoff, hnext, -⟩ := tlv_ok hparse
      dsimp only
      rw [ih a.next (c + 1) fun j hlo hhi => hbytes j (by omega) hhi]

theorem signedValue_congr {v len : Nat} (hlen : 0 < len) (hbytes : ∀ j, v ≤ j → j < v + len → byte' j = byte j) :
    signedValue byte' v len = signedValue byte v len := by
  unfold signedValue
  rw [hbytes v le_rfl (by omega), beValue_congr v len hbytes]

end

/-! ### The shared operations, on a state and on the same state with another buffer -/

section

variable {s : State} {m : Memory} {epoch : Nat}

theorem raisedFormat_alikeOffBuffer (e : FormatError) :
    EndAlikeOffBuffer (raisedFormat e s) (raisedFormat e (s.replaceBuffer m epoch)) :=
  ⟨_, _, rfl, rfl, rfl⟩

theorem completed_alikeOffBuffer {t t' : State} (h : t' = t.replaceBuffer t'.mem t'.epoch) (z rg : Bool) :
    EndAlikeOffBuffer (completed t z rg) (completed t' z rg) :=
  ⟨_, _, rfl, rfl, congrArg (fun u : State => u.complete z rg) h⟩

theorem ite_alikeOffBuffer {c c' : Prop} [Decidable c] [Decidable c'] {a b a' b' : Result} (hc : c' ↔ c)
    (hpos : c → EndAlikeOffBuffer a a') (hneg : ¬ c → EndAlikeOffBuffer b b') :
    EndAlikeOffBuffer (if c then a else b) (if c' then a' else b') := by
  by_cases h : c
  · rw [if_pos h, if_pos (hc.mpr h)]
    exact hpos h
  · rw [if_neg h, if_neg (mt hc.mp h)]
    exact hneg h

theorem withParse_alikeOffBuffer {α : Type} {p p' : Except FormatError α} {k k' : α → Result} (hp : p' = p)
    (hk : ∀ a, p = .ok a → EndAlikeOffBuffer (k a) (k' a)) :
    EndAlikeOffBuffer (withParse p s k) (withParse p' (s.replaceBuffer m epoch) k') := by
  subst hp
  cases p' with
  | error e => exact raisedFormat_alikeOffBuffer e
  | ok a => exact hk a rfl

variable (hslice : ∀ j, s.derPtr.toNat ≤ j → j < s.derEnd.toNat → (s.replaceBuffer m epoch).derByte j = s.derByte j)

include hslice

theorem withElement_alikeOffBuffer {k k' : Tlv → Result}
    (hk : ∀ a, SliceElement s a → EndAlikeOffBuffer (k a) (k' a)) :
    EndAlikeOffBuffer (withElement s k) (withElement (s.replaceBuffer m epoch) k') :=
  ite_alikeOffBuffer Iff.rfl
    (fun hs => withParse_alikeOffBuffer (tlv_congr hslice) fun a ha => hk a ⟨hs, (tlv_ok_iff _ _ _ _).1 ha⟩)
    fun _ => raisedFormat_alikeOffBuffer _

theorem withTagged_alikeOffBuffer {tag : Byte} {k k' : Tlv → Result}
    (hk : ∀ a, SliceElement s a → EndAlikeOffBuffer (k a) (k' a)) :
    EndAlikeOffBuffer (withTagged tag s k) (withTagged tag (s.replaceBuffer m epoch) k') :=
  withElement_alikeOffBuffer hslice fun a ha =>
    ite_alikeOffBuffer Iff.rfl (fun _ => hk a ha) fun _ => raisedFormat_alikeOffBuffer _

/-- The two buffers agree on the value of the slice's element. -/
theorem derByte_replaceBuffer_value {a : Tlv} (ha : SliceElement s a) :
    ∀ j, a.voff ≤ j → j < a.voff + a.len → (s.replaceBuffer m epoch).derByte j = s.derByte j := by
  obtain ⟨hvoff, hend⟩ := ha.value_mem_slice
  exact fun j hlo hhi => hslice j (by omega) (by omega)

/-! ### The commands -/

theorem execDint_alikeOffBuffer (rd : RegIdx) :
    EndAlikeOffBuffer (execDint rd s) (execDint rd (s.replaceBuffer m epoch)) := by
  refine withTagged_alikeOffBuffer hslice fun a ha => ?_
  have hvalue := derByte_replaceBuffer_value hslice ha
  refine ite_alikeOffBuffer Iff.rfl (fun _ => raisedFormat_alikeOffBuffer _) fun hlen => ?_
  refine ite_alikeOffBuffer (and_congr_right fun htwo => ?_) (fun _ => raisedFormat_alikeOffBuffer _) fun _ => ?_
  · rw [hvalue a.voff le_rfl (by omega), hvalue (a.voff + 1) (by omega) (by omega)]
  · rw [signedValue_congr (Nat.pos_of_ne_zero hlen) hvalue]
    exact completed_alikeOffBuffer rfl _ _

theorem execDseq_alikeOffBuffer : EndAlikeOffBuffer (execDseq s) (execDseq (s.replaceBuffer m epoch)) :=
  withTagged_alikeOffBuffer hslice fun _ ha =>
    withParse_alikeOffBuffer (countElements_congr _ _ _ (derByte_replaceBuffer_value hslice ha)) fun _ _ =>
      completed_alikeOffBuffer rfl _ _

theorem execDbit_alikeOffBuffer : EndAlikeOffBuffer (execDbit s) (execDbit (s.replaceBuffer m epoch)) := by
  refine withTagged_alikeOffBuffer hslice fun a ha => ite_alikeOffBuffer ?_
    (fun _ => raisedFormat_alikeOffBuffer _) fun _ => completed_alikeOffBuffer rfl _ _
  refine or_congr_right' fun hlen => ?_
  rw [derByte_replaceBuffer_value hslice ha a.voff le_rfl (by omega)]

theorem derCommands_alikeOffBuffer (rd : RegIdx) :
    ∀ i ∈ derCommands rd, EndAlikeOffBuffer (exec i s) (exec i (s.replaceBuffer m epoch)) := by
  simp only [derCommands, List.forall_mem_cons]
  exact ⟨withElement_alikeOffBuffer hslice fun _ _ => completed_alikeOffBuffer rfl _ _,
    execDint_alikeOffBuffer hslice rd, execDseq_alikeOffBuffer hslice, execDbit_alikeOffBuffer hslice,
    List.forall_mem_nil _⟩

end

end Sys2Proof.Machine

/-! The statements about the DER commands (42_der.md). -/

namespace Sys2Proof.Machine

/-- Settles O31: every DER command takes the slice's element first, and that starts with the slice check. -/
theorem sliceIsCheckedFirst : Obligations.SliceIsCheckedFirst := by
  unfold Obligations.SliceIsCheckedFirst
  intro rd s hs i hi
  obtain ⟨k, hk⟩ := derCommands_eq_withElement rd s i hi
  rw [hk, withElement_badSlice k hs]

/-- Settles O32: the parser raises exactly the violations of the header, before the command sees a tag. -/
theorem headerErrorsComeNext : Obligations.HeaderErrorsComeNext := by
  unfold Obligations.HeaderErrorsComeNext
  intro rd s d pos hs hheader i hi
  obtain ⟨k, hk⟩ := derCommands_eq_withElement rd s i hi
  rw [hk, withElement_headerError k hs hheader]

/-- Settles O33: the parser answers exactly the slice's element. -/
theorem dtlvWritesTheElement : Obligations.DtlvWritesTheElement := by
  unfold Obligations.DtlvWritesTheElement
  refine fun s => ⟨fun t ht => exec_dtlv_ok ht, fun u hexec herr => ?_⟩
  obtain ⟨a, ha, -⟩ := exec_dtlv_noError hexec herr
  exact ⟨a, ha⟩

/-- Settles O34: the tag is compared as soon as there is an element. -/
theorem wrongTagsAreRejected : Obligations.WrongTagsAreRejected := by
  unfold Obligations.WrongTagsAreRejected
  intro rd s t ht
  simp only [List.forall_mem_cons]
  exact ⟨withTagged_wrongTag _ ht, withTagged_wrongTag _ ht, withTagged_wrongTag _ ht, List.forall_mem_nil _⟩

/-- Settles O35: the signed value is unique, and it is the one DINT computes. -/
theorem dintWritesTheInteger : Obligations.DintWritesTheInteger := by
  unfold Obligations.DintWritesTheInteger
  intro rd s t val ht htag hlen hzero hval
  rw [exec_dint_ok ht htag hlen hzero hval, wroteInt, intOutOfRange_eq, intRegValue_eq]

/-- Settles O36: DINT checks the length and then the first two bytes of the value. -/
theorem dintRejectsBadIntegers : Obligations.DintRejectsBadIntegers := by
  unfold Obligations.DintRejectsBadIntegers
  exact fun rd s t ht htag => ⟨exec_dint_empty ht htag, exec_dint_leadingZero ht htag⟩

/-- Settles O37: the loop passes the elements of a walk, so it meets the first violation or the content's end, and
without error it walked there; its count fits DER_CNT. -/
theorem dseqCountsTheElements : Obligations.DseqCountsTheElements := by
  unfold Obligations.DseqCountsTheElements
  intro s t ht htag
  rw [exec_dseq_eq ht htag]
  refine ⟨fun n hwalk => ?count, fun i n d pos hwalk hi hheader => ?violation, fun u hexec herr => ?found⟩
  case count =>
    rw [countElements_of_walk hwalk (by omega), countElements_stop]
    rfl
  case violation =>
    have hle := hwalk.le
    rw [countElements_of_walk hwalk (by omega), countElements_headerError hheader hi (by omega)]
    rfl
  case found =>
    rcases withParse_next hexec with ⟨e, -, rfl⟩ | ⟨n, hcount, hnext⟩
    · cases herr
    injection hnext with hu
    have hlen := ht.len_le
    have hbound := countElements_bound _ _ _ _ hcount
    have hcnt : u.derCnt.toNat = n := by
      rw [← hu, wroteSeq, BitVec.toNat_ofNat, Nat.mod_eq_of_lt (by omega)]
    rw [hcnt]
    exact walk_of_countElements hcount (.start _) (by omega) (by omega)

/-- Settles O38: the unused-bits byte is checked before anything is written. -/
theorem dbitWritesTheOctets : Obligations.DbitWritesTheOctets := by
  unfold Obligations.DbitWritesTheOctets
  refine fun s t ht htag => ⟨fun hlen hunused => ?_, exec_dbit_badUnused ht htag⟩
  rw [exec_dbit_ok ht htag (by simp [hlen.ne', hunused])]
  simp only [show t.len - 1 = 0 ↔ t.len = 1 by omega]

/-- Settles O39: Z is the zero flag of the length DTLV, DSEQ and DBIT wrote; the flags of DINT are those of the one signed
value of the INTEGER it parsed. -/
theorem derFlags : Obligations.DerFlags := by
  unfold Obligations.DerFlags
  refine fun rd s t herr => ⟨lengthCommands_flags herr, fun hexec => ?_⟩
  obtain ⟨a, ha, htag, hlen, rfl⟩ := exec_dint_noError hexec herr
  have hsigned := isSignedValue_signedValue s.derByte a.voff hlen
  refine ⟨⟨a, _, ha, htag, hlen, hsigned⟩, fun e val he hval => ?_, wroteInt_flags_regNat s rd a _⟩
  obtain rfl := he.unique ha
  rw [hval.unique hsigned]
  exact wroteInt_flags s rd e _

/-- Settles O40: the parser, the value and the element loop read bytes of the slice only. -/
theorem derCommandsReadOnlyTheirSlice : Obligations.DerCommandsReadOnlyTheirSlice := by
  unfold Obligations.DerCommandsReadOnlyTheirSlice
  intro rd s s' hsame hslice
  rw [hsame] at hslice ⊢
  exact derCommands_alikeOffBuffer hslice rd

end Sys2Proof.Machine

/-! Everything a host access and a step can do, said once (20_memory.md R63 to R68, 00_scope.md R16). -/

namespace Sys2Proof.Machine

/-- How a host access can end in the state s: answered without further effect (a read, a misaligned access or an ignored
write), dropped because BUSY = 1, or with the effect of the write at its address. -/
inductive AccessEnds (s : State) : BusAccess → State → Prop
  | answered (a : BusAccess) (r : BusResponse) : AccessEnds s a (s.respond r)
  | dropped (a : Addr) (d : BusWord) : s.busy = true → Aligned a → IsGated a →
      AccessEnds s (.write a d) (s.dropWrite.respond .writeDone)
  | softReset (d : BusWord) : d.getLsbD 1 = true → AccessEnds s (.write 0x004 d) (s.softReset.respond .writeDone)
  | ctrl (d : BusWord) : d.getLsbD 1 = false →
      AccessEnds s (.write 0x004 d) ({ s with ie := d.getLsbD 0 }.respond .writeDone)
  | status (d : BusWord) : AccessEnds s (.write 0x008 d) ((s.writeStatus d).respond .writeDone)
  | accepted (d : BusWord) : s.busy = false → AccessEnds s (.write 0x00C d) ((s.accept d).respond .writeDone)
  | pointers (a : Addr) (d : BusWord) (first stop : Offset) : a = 0x020 ∨ a = 0x024 → s.busy = false →
      AccessEnds s (.write a d) ({ s with derPtr := first, derEnd := stop }.respond .writeDone)
  | register (a : Addr) (d : BusWord) (i : RegIdx) (v : RegWord) : InRegWindow a → s.busy = false →
      AccessEnds s (.write a d) ((s.setReg i v).respond .writeDone)
  | buffer (a : Addr) (d : BusWord) (off : Nat) : InDerWindow a → off + 3 < Config.derSize → s.busy = false →
      AccessEnds s (.write a d) ({ s with mem := s.mem.writeWord (Config.derBase + off) d }.respond .writeDone)

/-- A gated write is dropped while BUSY = 1, and otherwise stored (20_memory.md R68). -/
theorem gated_accessEnds {s t : State} {a : Addr} {d : BusWord} (ha : Aligned a) (hgated : IsGated a)
    (hstored : s.busy = false → AccessEnds s (.write a d) (t.respond .writeDone)) :
    AccessEnds s (.write a d) ((s.gated t).respond .writeDone) := by
  cases hbusy : s.busy with
  | false => rw [gated_idle hbusy]; exact hstored hbusy
  | true => rw [gated_busy hbusy]; exact .dropped a d hbusy ha hgated

theorem writeCsr_accessEnds (s : State) (d : BusWord) (c : Csr) :
    AccessEnds s (.write c.addr d) ((s.writeCsr d c).respond .writeDone) := by
  have ha : Aligned c.addr := aligned_of_misaligned_eq_false (misaligned_csrAddr c)
  cases c with
  | ctrl =>
    rw [State.writeCsr]
    cases hsrst : d.getLsbD 1 with
    | false => rw [writeCtrl_ie hsrst]; exact .ctrl d hsrst
    | true => rw [writeCtrl_srst hsrst]; exact .softReset d hsrst
  | status => exact .status d
  | cmd => exact gated_accessEnds ha (by simp [IsGated, Csr.addr]) (.accepted d)
  | derPtr => exact gated_accessEnds ha (by simp [IsGated, Csr.addr]) (.pointers _ d _ s.derEnd (Or.inl rfl))
  | derEnd => exact gated_accessEnds ha (by simp [IsGated, Csr.addr]) (.pointers _ d s.derPtr _ (Or.inr rfl))
  | id | errcode | errpos | derTag | derLen | derVoff | derNext | derCnt => exact .answered _ .writeDone

theorem writePlace_accessEnds (s : State) (d : BusWord) {a : Addr} (ha : Aligned a) :
    AccessEnds s (.write a d) ((s.writePlace d (placeOf a)).respond .writeDone) := by
  rcases placeOf_cases ha with ⟨c, rfl⟩ | hreg | hder | hrom | hreserved
  · rw [placeOf_csrAddr]
    exact writeCsr_accessEnds s d c
  · rw [placeOf_reg hreg]
    exact gated_accessEnds ha (Or.inl hreg) (.register a d _ _ hreg)
  · have hword : a.toNat - 0x800 + 3 < Config.derSize := by
      have hlt := a.isLt
      unfold Aligned at ha
      unfold InDerWindow at hder
      unfold Config.derSize
      omega
    rw [placeOf_der hder]
    exact gated_accessEnds ha (Or.inr (Or.inl hder)) (.buffer a d _ hder hword)
  · rw [placeOf_rom hrom]
    exact .answered _ .writeDone
  · rw [hreserved]
    exact .answered _ .writeDone

/-- Everything a host access can do. -/
theorem busAccess_accessEnds (s : State) (a : BusAccess) : AccessEnds s a (s.busAccess a) := by
  cases a with
  | read addr =>
    obtain ⟨r, hr⟩ := busAccess_read s addr
    rw [hr]
    exact .answered _ r
  | write addr d =>
    cases hmis : misaligned addr with
    | true => rw [busAccess_misalignedWrite hmis]; exact .answered _ _
    | false =>
      rw [busAccess_alignedWrite hmis]
      exact writePlace_accessEnds s d (aligned_of_misaligned_eq_false hmis)

/-- The state without its first scheduled event. -/
def State.popEvent (s : State) : State := { s with events := s.events.tail }

/-- How a step can end in the state s: by the engine's turn, a host access or a hard reset, whichever comes first in the
schedule. -/
inductive StepEnds (s : State) : State → Prop
  | engine (t : State) : (s.events = [] ∨ s.events.head? = some .engine) → engineTurn s.popEvent = .next t → StepEnds s t
  | access (a : BusAccess) (t : State) : s.events.head? = some (.bus a) → AccessEnds s.popEvent a t → StepEnds s t
  | hardReset : s.events.head? = some .hardReset → StepEnds s s.popEvent.hardReset

/-- Everything a step can do. -/
theorem step_ends {s t : State} (h : step s = .next t) : StepEnds s t := by
  cases hevents : s.events with
  | nil => exact .engine t (Or.inl hevents) (by rwa [step_engine (Or.inl hevents)] at h)
  | cons e rest =>
    have hpop : { s with events := rest } = s.popEvent := by rw [State.popEvent, hevents, List.tail_cons]
    have hhead : s.events.head? = some e := by rw [hevents, List.head?_cons]
    rw [step_of_event hevents, hpop] at h
    cases e with
    | bus a => exact .access a t hhead (Host.Outcome.next.inj h ▸ busAccess_accessEnds s.popEvent a)
    | engine => exact .engine t (Or.inr hhead) h
    | hardReset => exact Host.Outcome.next.inj h ▸ .hardReset hhead

end Sys2Proof.Machine

/-! What the end of a command reports (60_exceptions.md R236), and what the engine's turn and a step do to the
schedule. -/

namespace Sys2Proof.Machine

theorem Ends.completed {i : Instr} {s t : State} (h : Ends i s t) : t.busy = false ∧ t.done = true := by
  cases h with
  | error | field | point | dtlv | dint | dseq | dbit => exact ⟨rfl, rfl⟩

/-- A command that ends with ERR raised one of its own causes. -/
theorem Ends.raise_of_err {i : Instr} {s t : State} (h : Ends i s t) (herr : t.err = true) :
    ∃ c d pos, c ∈ i.causes ∧ (d ≠ .none ↔ c = .format) ∧ t = s.raise c d pos := by
  cases h with
  | error c d pos hcause hdetail => exact ⟨c, d, pos, hcause, hdetail, rfl⟩
  | field | point | dtlv | dint | dseq | dbit => cases herr

theorem engineTurn_sameSurroundings {s t : State} (h : engineTurn s = .next t) : SameSurroundings s t := by
  rcases engineTurn_next h with ⟨-, rfl⟩ | ⟨_, -, -, rfl⟩ | ⟨_, -, -, hends⟩
  · exact ⟨rfl, rfl, rfl, rfl, rfl, rfl, rfl, rfl, rfl, rfl⟩
  · exact ⟨rfl, rfl, rfl, rfl, rfl, rfl, rfl, rfl, rfl, rfl⟩
  · exact hends.sameSurroundings

/-- After the engine's turn no command is in flight. -/
theorem engineTurn_endsIdle {s t : State} (h : engineTurn s = .next t) : t.busy = false := by
  rcases engineTurn_next h with ⟨hidle, rfl⟩ | ⟨_, -, -, rfl⟩ | ⟨_, -, -, hends⟩
  · exact hidle
  · exact State.raise_busy s _ _ _
  · exact hends.completed.1

theorem AccessEnds.events_eq {s t : State} {a : BusAccess} (h : AccessEnds s a t) : t.events = s.events := by
  cases h with
  | answered | dropped | softReset | ctrl | status | accepted | pointers | register | buffer => rfl

/-- A step takes the first event off the schedule, and adds none. -/
theorem step_events {s t : State} (h : step s = .next t) : t.events = s.events.tail := by
  cases step_ends h with
  | engine _ _ hturn => exact (engineTurn_sameSurroundings hturn).events
  | access _ _ _ haccess => exact haccess.events_eq
  | hardReset => rfl

/-- By induction on the schedule: each of its events is one step, and the engine's turn follows. -/
theorem run_endsIdle (events : List Event) (s : State) (hs : s.events = events) :
    ∃ t : State, Sys2Proof.core.run (events.length + 1) s = .next t ∧ t.busy = false ∧ t.events = [] := by
  induction events generalizing s with
  | nil =>
    obtain ⟨t, hstep⟩ := step_goesOn s
    have hturn : engineTurn s = .next t := by rwa [step_of_no_events hs] at hstep
    exact ⟨t, run_succ hstep, engineTurn_endsIdle hturn, by rw [step_events hstep, hs, List.tail_nil]⟩
  | cons e rest ih =>
    obtain ⟨u, hstep⟩ := step_goesOn s
    obtain ⟨t, hrun, hidle⟩ := ih u (by rw [step_events hstep, hs, List.tail_cons])
    exact ⟨t, (run_succ hstep).trans hrun, hidle⟩

end Sys2Proof.Machine

/-! Each operation on the state keeps the invariant (10_state.md R28, R30, R35, 42_der.md R194, R205, R210). -/

namespace Sys2Proof

open Machine

/-- The fields the invariant speaks of, without the memory. -/
def reportFields (s : State) :=
  (s.busy, s.done, s.err, s.z, s.rg, s.cause, s.detail, s.errpos, s.derVoff, s.derLen, s.derNext, s.derCnt)

section

variable {s t : State}

theorem Inv.of_reportFields_eq (h : Inv s) (hmem : t.mem.wf = true) (hsame : reportFields t = reportFields s) :
    Inv t := by
  simp only [reportFields, Prod.mk.injEq] at hsame
  obtain ⟨hbusy, hdone, herr, hz, hrg, hcause, hdetail, herrpos, hvoff, hlen, hnext, hcnt⟩ := hsame
  constructor
  case memory => exact hmem
  case inFlight => rw [hbusy, hdone, herr, hz, hrg]; exact h.inFlight
  case noError => rw [herr, hcause, hdetail, herrpos]; exact h.noError
  case error => rw [herr, hcause, hz, hrg]; exact h.error
  case detail => rw [hdetail, hcause]; exact h.detail
  case range => rw [hrg, hz]; exact h.range
  case derResult => rw [hvoff, hlen, hnext]; exact h.derResult
  case derCount => rw [hcnt]; exact h.derCount

theorem Inv.popEvent (h : Inv s) : Inv s.popEvent := h.of_reportFields_eq h.memory rfl

theorem Inv.respond (h : Inv s) (r : BusResponse) : Inv (s.respond r) := h.of_reportFields_eq h.memory rfl

theorem Inv.dropWrite (h : Inv s) : Inv s.dropWrite := h.of_reportFields_eq h.memory rfl

theorem Inv.setReg (h : Inv s) (i : RegIdx) (v : RegWord) : Inv (s.setReg i v) := h.of_reportFields_eq h.memory rfl

theorem Inv.setPair (h : Inv s) (i : RegIdx) (x y : RegWord) : Inv (s.setPair i x y) := (h.setReg i x).setReg _ y

/-- With every field but the buffer's list at its reset value, the list's form is all that is left to keep. -/
theorem Inv.of_reset (hmem : t.mem.wf = true) (hreset : reportFields t = reportFields State.reset) : Inv t :=
  resetHasTheInvariant.of_reportFields_eq hmem hreset

theorem Inv.softReset (h : Inv s) : Inv s.softReset := .of_reset h.memory rfl

theorem Inv.hardReset (s : State) : Inv s.hardReset := .of_reset State.reset_mem_wf rfl

theorem Inv.writeStatus (h : Inv s) (d : BusWord) : Inv (s.writeStatus d) where
  memory := h.memory
  inFlight hbusy := by
    obtain ⟨hdone, hrest⟩ := h.inFlight hbusy
    exact ⟨by rw [State.writeStatus_done, hdone, Bool.false_and], hrest⟩
  noError := h.noError
  error := h.error
  detail := h.detail
  range := h.range
  derResult := h.derResult
  derCount := h.derCount

theorem Inv.accept (h : Inv s) (w : BusWord) : Inv (s.accept w) where
  memory := h.memory
  inFlight _ := ⟨rfl, rfl, rfl, rfl⟩
  noError _ := ⟨rfl, rfl, rfl⟩
  error herr := by cases herr
  detail := by simp
  range hrg := by cases hrg
  derResult := h.derResult
  derCount := h.derCount

/-- An error completion keeps the invariant if it has a cause, and a detail exactly for FORMAT. -/
theorem Inv.raise (h : Inv s) {c : Cause} {d : Detail} (pos : Offset) (hcause : c ≠ .none)
    (hdetail : d ≠ .none ↔ c = .format) : Inv (s.raise c d pos) where
  memory := h.memory
  inFlight hbusy := by cases hbusy
  noError herr := by cases herr
  error _ := ⟨hcause, rfl, rfl⟩
  detail := hdetail
  range hrg := by cases hrg
  derResult := h.derResult
  derCount := h.derCount

/-- A successful completion reports no error, so ERRCODE and ERRPOS have to be clear already (log entry 12). -/
theorem Inv.complete (h : Inv s) (herr : s.err = false) {z rg : Bool} (hrange : rg = true → z = false) :
    Inv (s.complete z rg) where
  memory := h.memory
  inFlight hbusy := by cases hbusy
  noError _ := h.noError herr
  error herr' := by cases herr'
  detail := h.detail
  range := hrange
  derResult := h.derResult
  derCount := h.derCount

/-- An element whose value ends inside the buffer keeps its offsets when they are held in twelve bits. -/
theorem Inv.setDer (h : Inv s) (tag : Byte) {len voff next : Nat} (hnext : voff + len = next) (hend : next ≤ 2048) :
    Inv (s.setDer tag len voff next) where
  memory := h.memory
  inFlight := h.inFlight
  noError := h.noError
  error := h.error
  detail := h.detail
  range := h.range
  derResult := by simp only [State.setDer, BitVec.toNat_ofNat]; omega
  derCount := h.derCount

theorem Inv.setCnt (h : Inv s) {n : Nat} (hn : 2 * n ≤ 2048) : Inv (s.setCnt n) where
  memory := h.memory
  inFlight := h.inFlight
  noError := h.noError
  error := h.error
  detail := h.detail
  range := h.range
  derResult := h.derResult
  derCount := by simp only [State.setCnt, BitVec.toNat_ofNat]; omega

end

end Sys2Proof

/-! Every command, every host access and every step keeps the invariant. -/

namespace Sys2Proof

open Machine

section

variable {i : Instr} {s t : State}

theorem none_notMem_causes (i : Instr) : Cause.none ∉ i.causes := by cases i <;> simp [Instr.causes]

/-- An error end keeps the invariant. -/
theorem Inv.raise_of_mem_causes (h : Inv s) {c : Cause} {d : Detail} (pos : Offset) (hcause : c ∈ i.causes)
    (hdetail : d ≠ .none ↔ c = .format) : Inv (s.raise c d pos) :=
  h.raise pos (fun hnone => none_notMem_causes i (hnone ▸ hcause)) hdetail

/-- The end of a field or point command: an error, or registers written and RG = 0. -/
theorem Inv.of_ends (h : Inv s) (hclear : s.err = false) (hends : Ends i s t) (hi : ∀ rd, i ∉ derCommands rd) :
    Inv t := by
  cases hends with
  | error c d pos hcause hdetail => exact h.raise_of_mem_causes pos hcause hdetail
  | field rd r z => exact (h.setReg rd r).complete hclear Bool.noConfusion
  | point rd x y z => exact (h.setPair rd x y).complete hclear Bool.noConfusion
  | dtlv _ _ _ _ _ heq => exact absurd (by simp [derCommands, heq]) (hi 0)
  | dint rd _ _ _ _ _ _ heq => exact absurd (by simp [derCommands, heq]) (hi rd)
  | dseq _ _ _ _ _ heq => exact absurd (by simp [derCommands, heq]) (hi 0)
  | dbit _ _ _ _ heq => exact absurd (by simp [derCommands, heq]) (hi 0)

/-- A slice's element ends inside the buffer (42_der.md R193, R194). -/
theorem SliceElement.next_bounds {a : Tlv} (h : SliceElement s a) : a.voff + a.len = a.next ∧ a.next ≤ 2048 := by
  obtain ⟨-, hbuffer⟩ := h.1
  obtain ⟨-, -, hnext, hend⟩ := tlv_ok h.tlv_eq
  exact ⟨hnext.symm, hend.trans hbuffer⟩

/-- DBIT without error parsed a value with its unused-bits byte (42_der.md R215). -/
theorem exec_dbit_len_pos {a : Tlv} (hexec : exec .dbit s = .next t) (herr : t.err = false) (ha : SliceElement s a)
    (htag : a.tag = 0x03) : 0 < a.len := by
  refine Nat.pos_of_ne_zero fun hempty => ?_
  rw [exec_dbit_badUnused ha htag (Or.inl hempty)] at hexec
  rw [← Host.Outcome.next.inj hexec] at herr
  cases herr

theorem Inv.of_dtlv (h : Inv s) (hclear : s.err = false) (hexec : exec .dtlv s = .next t) (herr : t.err = false) :
    Inv t := by
  obtain ⟨a, ha, rfl⟩ := exec_dtlv_noError hexec herr
  obtain ⟨hnext, hend⟩ := ha.next_bounds
  exact (h.setDer a.tag hnext hend).complete hclear Bool.noConfusion

/-- A value out of range is not 0 (42_der.md R205). -/
theorem Inv.of_dint {rd : RegIdx} (h : Inv s) (hclear : s.err = false) (hexec : exec (.dint rd) s = .next t)
    (herr : t.err = false) : Inv t := by
  obtain ⟨a, ha, -, -, rfl⟩ := exec_dint_noError hexec herr
  obtain ⟨hnext, hend⟩ := ha.next_bounds
  obtain ⟨hrange, -⟩ := wroteInt_flags_regNat s rd a (signedValue s.derByte a.voff a.len)
  exact ((h.setReg rd _).setDer 0x02 hnext hend).complete hclear fun hrg => (hrange hrg).1

/-- Every element counted has at least two bytes of the content (42_der.md R210). -/
theorem Inv.of_dseq (h : Inv s) (hclear : s.err = false) (hexec : exec .dseq s = .next t) (herr : t.err = false) :
    Inv t := by
  obtain ⟨a, count, ha, -, hcount, rfl⟩ := exec_dseq_noError hexec herr
  obtain ⟨hnext, hend⟩ := ha.next_bounds
  have hbound := countElements_bound _ _ _ _ hcount
  exact ((h.setDer 0x30 hnext hend).setCnt (by omega)).complete hclear Bool.noConfusion

/-- The octets start one byte after the value, and the value has that byte (42_der.md R215). -/
theorem Inv.of_dbit (h : Inv s) (hclear : s.err = false) (hexec : exec .dbit s = .next t) (herr : t.err = false) :
    Inv t := by
  obtain ⟨a, ha, htag, -⟩ := sliceElement_of_withTagged hexec herr
  obtain ⟨b, hb, rfl⟩ := exec_dbit_noError hexec herr
  obtain rfl := ha.unique hb
  have hpos := exec_dbit_len_pos hexec herr ha htag
  obtain ⟨hnext, hend⟩ := ha.next_bounds
  exact (h.setDer 0x03 (by omega) hend).complete hclear Bool.noConfusion

theorem Inv.of_exec (h : Inv s) (hclear : s.err = false) (hexec : exec i s = .next t) : Inv t := by
  have hends : Ends i s t := exec_ends i s t hexec
  cases herr : t.err with
  | true =>
    obtain ⟨c, d, pos, hcause, hdetail, rfl⟩ := hends.raise_of_err herr
    exact h.raise_of_mem_causes pos hcause hdetail
  | false =>
    cases i with
    | dtlv => exact h.of_dtlv hclear hexec herr
    | dint rd => exact h.of_dint hclear hexec herr
    | dseq => exact h.of_dseq hclear hexec herr
    | dbit => exact h.of_dbit hclear hexec herr
    | fadd | fsub | fneg | fmul | mmul | finv | fsqrt | fred | bred | ldc | padd | pdbl | pmul =>
      exact h.of_ends hclear hends (by simp [derCommands])

/-- A command in flight starts with a clear report, so its completion leaves a matching one. -/
theorem Inv.of_engineTurn (h : Inv s) (hturn : engineTurn s = .next t) : Inv t := by
  cases hbusy : s.busy with
  | false =>
    rw [engineTurn_idle hbusy] at hturn
    exact Host.Outcome.next.inj hturn ▸ h
  | true =>
    rw [engineTurn_busy hbusy] at hturn
    obtain ⟨-, hclear, -⟩ := h.inFlight hbusy
    cases hdecode : decode s.cmd with
    | error e =>
      rw [runCommand_illegal hdecode] at hturn
      rw [raised_next hturn]
      exact h.raise 0 (by decide) (by decide)
    | ok i =>
      rw [runCommand_legal hdecode] at hturn
      exact h.of_exec hclear hturn

theorem Inv.of_accessEnds {a : BusAccess} (h : Inv s) (haccess : AccessEnds s a t) : Inv t := by
  cases haccess with
  | answered _ r => exact h.respond r
  | dropped => exact h.dropWrite.respond _
  | softReset => exact h.softReset.respond _
  | ctrl | pointers => exact h.of_reportFields_eq h.memory rfl
  | status d => exact (h.writeStatus d).respond _
  | accepted d => exact (h.accept d).respond _
  | register _ _ i v => exact (h.setReg i v).respond _
  | buffer a d off _ hword _ =>
    exact h.of_reportFields_eq (Memory.wf_writeWord s.mem _ d (by omega) (by omega) h.memory) rfl

end

end Sys2Proof

/-! OVR along a step (60_exceptions.md R241, 20_memory.md R68). -/

namespace Sys2Proof.Machine

/-- Only a dropped write sets OVR. -/
theorem AccessEnds.sets_ovr {s t : State} {a : BusAccess} (h : AccessEnds s a t) (hovr : t.ovr = true) :
    s.ovr = true ∨ (s.busy = true ∧ ∃ b d, a = .write b d ∧ Aligned b ∧ IsGated b) := by
  cases h with
  | answered | ctrl | accepted | pointers | register | buffer => exact Or.inl hovr
  | dropped b d hbusy hb hgated => exact Or.inr ⟨hbusy, b, d, rfl, hb, hgated⟩
  | softReset => cases hovr
  | status d =>
    rw [State.respond_ovr, State.writeStatus_ovr, Bool.and_eq_true] at hovr
    exact Or.inl hovr.1

/-- Only a 1 written to STATUS bit 5 or a soft reset clears OVR. -/
theorem AccessEnds.clears_ovr {s t : State} {a : BusAccess} (h : AccessEnds s a t) (hovr : s.ovr = true) :
    t.ovr = true ∨ ∃ d : BusWord, (d.getLsbD 5 = true ∧ a = .write 0x008 d) ∨
      (d.getLsbD 1 = true ∧ a = .write 0x004 d) := by
  cases h with
  | answered | ctrl | accepted | pointers | register | buffer => exact Or.inl hovr
  | dropped => exact Or.inl rfl
  | softReset d hsrst => exact Or.inr ⟨d, Or.inr ⟨hsrst, rfl⟩⟩
  | status d =>
    cases hbit : d.getLsbD 5 with
    | true => exact Or.inr ⟨d, Or.inl ⟨hbit, rfl⟩⟩
    | false =>
      rw [State.respond_ovr, State.writeStatus_ovr, hbit, hovr]
      exact Or.inl rfl

end Sys2Proof.Machine

/-! The statements about acceptance, completion, errors and the interrupt (60_exceptions.md). -/

namespace Sys2Proof.Machine

/-- Settles O59: the engine's turn, every host access and the hard reset keep the invariant. -/
theorem everyStepKeepsTheInvariant : Obligations.EveryStepKeepsTheInvariant := by
  unfold Obligations.EveryStepKeepsTheInvariant
  intro s t h hstep
  cases step_ends hstep with
  | engine _ _ hturn => exact h.popEvent.of_engineTurn hturn
  | access a _ _ haccess => exact h.popEvent.of_accessEnds haccess
  | hardReset => exact .hardReset s.popEvent

/-- Settles O9: every command answers a next state, and each of its ends is a completion. -/
theorem everyCommandCompletes : Obligations.EveryCommandCompletes := by
  unfold Obligations.EveryCommandCompletes
  intro i s
  obtain ⟨t, hexec⟩ := exec_goesOn i s
  exact ⟨t, hexec, (exec_ends i s t hexec).completed⟩

/-- Settles O10: one step for each event of the schedule, and one for the engine. -/
theorem scheduleEndsIdle : Obligations.ScheduleEndsIdle := by
  unfold Obligations.ScheduleEndsIdle
  exact fun s => run_endsIdle s.events s rfl

/-- Settles O11: the one end with ERR is a raised cause of the command. -/
theorem errorsArePrecise : Obligations.ErrorsArePrecise := by
  unfold Obligations.ErrorsArePrecise
  intro i s t hexec herr
  obtain ⟨c, d, pos, hcause, hdetail, rfl⟩ := (exec_ends i s t hexec).raise_of_err herr
  exact ⟨rfl, hcause, hdetail⟩

/-- Settles O41: a write to CMD is gated by BUSY, and what it stores is the acceptance. -/
theorem commandAcceptance : Obligations.CommandAcceptance := by
  unfold Obligations.CommandAcceptance
  intro s w
  have hwrite : hostStep (.write 0x00C w) s = .next ((s.gated (s.accept w)).respond .writeDone) :=
    hostStep_writeCsr .cmd w s
  rw [hwrite]
  refine ⟨fun hidle => ?_, fun hbusy => ?_⟩
  · rw [gated_idle hidle]
    rfl
  · rw [gated_busy hbusy]
    rfl

/-- Settles O54: a completion sets DONE and leaves IE, and each of the other events writes IE or clears DONE. -/
theorem interruptFollowsDone : Obligations.InterruptFollowsDone := by
  unfold Obligations.InterruptFollowsDone
  intro s t d
  have hwrite {c : Csr} (h : hostStep (.write c.addr d) s = .next t) : t = (s.writeCsr d c).respond .writeDone := by
    rw [hostStep_writeCsr] at h
    exact (Host.Outcome.next.inj h).symm
  refine ⟨rfl, fun i h => ?completion, fun hkeep h => ?ie, fun hclear h => ?done, fun hidle h => ?acceptance,
    fun hsrst h => ?softReset, fun h => ?hardReset⟩
  case completion =>
    have hends := exec_ends i s t h
    rw [State.irq, hends.sameSurroundings.ie, hends.completed.2, Bool.and_true]
  case ie =>
    rw [hwrite (c := .ctrl) h, State.writeCsr, writeCtrl_ie hkeep]
    rfl
  case done =>
    rw [hwrite (c := .status) h]
    simp [State.irq, State.writeCsr, hclear]
  case acceptance =>
    rw [hwrite (c := .cmd) h, State.writeCsr, gated_idle hidle]
    simp [State.irq]
  case softReset =>
    rw [hwrite (c := .ctrl) h, State.writeCsr, writeCtrl_srst hsrst]
    rfl
  case hardReset =>
    rw [← Host.Outcome.next.inj h]
    rfl

/-- Settles O55: the engine's turn leaves OVR, a host access sets or clears it as its end says, and a hard reset
clears it. -/
theorem ovrIsSticky : Obligations.OvrIsSticky := by
  unfold Obligations.OvrIsSticky
  intro s t hstep
  cases step_ends hstep with
  | engine _ _ hturn =>
    have hsame : t.ovr = s.ovr := (engineTurn_sameSurroundings hturn).ovr
    exact ⟨fun hovr => Or.inl (hsame ▸ hovr), fun hovr => Or.inl (hsame.trans hovr)⟩
  | access a _ hhead haccess =>
    rw [hhead]
    refine ⟨fun hovr => ?_, fun hovr => ?_⟩
    · rcases haccess.sets_ovr hovr with hset | ⟨hbusy, b, d, rfl, hb, hgated⟩
      · exact Or.inl hset
      · exact Or.inr ⟨hbusy, b, d, rfl, hb, hgated⟩
    · rcases haccess.clears_ovr hovr with hset | ⟨d, ⟨hbit, rfl⟩ | ⟨hsrst, rfl⟩⟩
      · exact Or.inl hset
      · exact Or.inr (Or.inr ⟨d, Or.inl ⟨hbit, rfl⟩⟩)
      · exact Or.inr (Or.inr ⟨d, Or.inr ⟨hsrst, rfl⟩⟩)
  | hardReset hhead => exact ⟨fun hovr => absurd hovr (by simp), fun _ => Or.inr (Or.inl hhead)⟩

/-- Settles O7: the accepted state is the one the host's write leaves before its answer, and the engine's turn runs the
command from there (log entry 8). -/
theorem acceptedWordRunsNext : Obligations.AcceptedWordRunsNext := by
  unfold Obligations.AcceptedWordRunsNext
  intro s w i hdecode hidle
  have hword : BitVec.ofNat 32 (w.toNat % 2 ^ 32) = w := by
    rw [Nat.mod_eq_of_lt w.isLt, BitVec.ofNat_toNat, BitVec.setWidth_eq]
  refine ⟨s.accept w, (commandAcceptance s w).1 hidle, rfl, ?_⟩
  calc step (s.withFetchWord 32 w.toNat)
      = engineTurn (s.accept w) := by rw [State.withFetchWord, hword]; rfl
    _ = runCommand (s.accept w) := engineTurn_busy rfl
    _ = exec i (s.accept w) := runCommand_legal hdecode

end Sys2Proof.Machine

/-! What the hard reset leaves in the operand registers and in the DER buffer (10_state.md R39). -/

namespace Sys2Proof.Machine

/-- The hard reset clears every operand register (70_reset_and_hazards.md R274). -/
@[simp] theorem State.reg_hardReset (s : State) (i : RegIdx) : s.hardReset.reg i = 0 :=
  (State.reg_congr rfl i).trans (State.reg_reset i)

/-- No byte of the buffer is written since the reset, so each is the new epoch's draw (log entry 5). -/
@[simp] theorem State.derByte_hardReset (s : State) (a : Nat) :
    s.hardReset.derByte a = Config.derDraw (s.epoch + 1) a := rfl

theorem step_hardReset (s : State) : step { s with events := .hardReset :: s.events } = .next s.hardReset :=
  (step_of_event rfl).trans rfl

end Sys2Proof.Machine

/-! OVR along the steps of a host that obeys the hazard rule (70_reset_and_hazards.md R280, R281). -/

namespace Sys2Proof.Machine

/-- A step sets OVR by dropping a gated write only, and that is an access that must wait. -/
theorem step_ovr_of_obeys {s t : State} (hobeys : Obeys s) (hovr : s.ovr = false) (hstep : step s = .next t) :
    t.ovr = false := by
  obtain ⟨hsets, -⟩ := ovrIsSticky s t hstep
  by_contra hset
  rcases hsets (eq_true_of_ne_false hset) with hbefore | ⟨hbusy, a, d, hhead, -, hgated⟩
  · exact absurd hbefore (by simp [hovr])
  · obtain ⟨rest, hevents⟩ := List.head?_eq_some_iff.mp hhead
    exact hobeys (.write a d) rest hevents hbusy hgated

/-- By induction on the number of steps, for every state that obeys the rule from there on. -/
theorem run_ovr_of_obeysFor {n : Nat} {s t : State} (hovr : s.ovr = false) (hobeys : ObeysFor n s)
    (hrun : Sys2Proof.core.run n s = .next t) : t.ovr = false := by
  induction n generalizing s with
  | zero => exact Host.Outcome.next.inj hrun ▸ hovr
  | succ n ih =>
    obtain ⟨hfirst, hrest⟩ := hobeys
    obtain ⟨u, hstep⟩ := step_goesOn s
    rw [run_succ hstep] at hrun
    exact ih (step_ovr_of_obeys hfirst hovr hstep) (hrest u hstep) hrun

end Sys2Proof.Machine

/-! The statements about the resets and the hazard rule (70_reset_and_hazards.md). -/

namespace Sys2Proof.Machine

/-- Settles O56: a step that obeys the rule keeps OVR = 0, and so does every run of such steps. -/
theorem waitingHostNeverSetsOvr : Obligations.WaitingHostNeverSetsOvr := by
  unfold Obligations.WaitingHostNeverSetsOvr
  exact fun _ _ _ => run_ovr_of_obeysFor

/-- Settles O52: a write to CTRL with SRST set is the soft reset, and its answer is all that follows. -/
theorem softResetClearsAllButTheBuffer : Obligations.SoftResetClearsAllButTheBuffer := by
  unfold Obligations.SoftResetClearsAllButTheBuffer
  intro s d hsrst
  calc hostStep (.write 0x004 d) s
      = .next ((s.writeCtrl d).respond .writeDone) := hostStep_writeCsr .ctrl d s
    _ = .next (s.softReset.respond .writeDone) := by rw [writeCtrl_srst hsrst]
    _ = _ := rfl

/-- Settles O53: the step delivers the hard reset, whose fields are its simp laws, irq being IE && DONE. -/
theorem hardResetClearsAll : Obligations.HardResetClearsAll := by
  unfold Obligations.HardResetClearsAll
  intro s
  refine ⟨s.hardReset, step_hardReset s, s.reg_hardReset, ?_⟩
  simp [State.irq]

end Sys2Proof.Machine
